-- ==== Sys2Proof/Word.lean ====
section
/-! DEFINITION. The word types of the T85 control core: the widths that more than one file names. Bit 0 is the
least significant bit of every word (00_scope.md R7). -/

namespace Sys2Proof

/-- One byte: a format opcode, a mode character, an entry of a barcode payload. -/
abbrev Byte := BitVec 8

/-- A format E word, one input event (30_encoding.md R92). -/
abbrev EventWord := BitVec 80

/-- A format C word, one command (30_encoding.md R94). -/
abbrev CommandWord := BitVec 48

/-- A format A word, one motor call (30_encoding.md R96). -/
abbrev ActuationWord := BitVec 24

/-- A reading of the timebase, and an interval between two readings (60_exceptions.md R321). -/
abbrev Time := BitVec 64

/-- A raw Q16.16 value: the `s32` integer `r` that stands for `r / 65536` (00_scope.md R9). -/
abbrev Q16 := BitVec 32

end Sys2Proof
end

