-- ==== Sys2Proof/Machine/BarcodeTables.lean ====
section
/-! DEFINITION. The three tables of the barcode engine (42_barcode.md R162 to R165). The patterns are the spec's, which marks
them as supplied from general knowledge (93_implementation_defined.md GK1, GK2; log entry 18). In a pattern `true` is wide and the leftmost
element is the first one measured. -/

namespace Sys2Proof.Machine

/-- `BAR_TABLE` (R163): the ten bar patterns and their values 1 to 10. -/
def barTable : List (List Bool × Nat) :=
  [ ([true,  false, false, false, true],  1),
    ([false, true,  false, false, true],  2),
    ([true,  true,  false, false, false], 3),
    ([false, false, true,  false, true],  4),
    ([true,  false, true,  false, false], 5),
    ([false, true,  true,  false, false], 6),
    ([false, false, false, true,  true],  7),
    ([true,  false, false, true,  false], 8),
    ([false, true,  false, true,  false], 9),
    ([false, false, true,  true,  false], 10) ]

/-- `SPACE_TABLE` (R164): the four space patterns and their offsets. -/
def spaceTable : List (List Bool × Nat) :=
  [ ([false, true,  false, false], 0),
    ([false, false, true,  false], 10),
    ([false, false, false, true],  20),
    ([true,  false, false, false], 30) ]

/-- `ALPHABET` (R165): the 41 characters, as ASCII codes. -/
def alphabet : List Byte :=
  [ 0x7E, 0x30, 0x31, 0x32, 0x33, 0x34, 0x35, 0x36, 0x37, 0x38, 0x39,
    0x41, 0x42, 0x43, 0x44, 0x45, 0x46, 0x47, 0x48, 0x49, 0x4A, 0x4B, 0x4C, 0x4D,
    0x4E, 0x4F, 0x50, 0x51, 0x52, 0x53, 0x54, 0x55, 0x56, 0x57, 0x58, 0x59, 0x5A,
    0x2D, 0x2E, 0x20, 0x2A ]

/-- The sentinel `*`. -/
abbrev sentinel : Byte := 0x2A

/-- The no-match character `~`, index 0 of `ALPHABET` (R162). -/
abbrev noMatch : Byte := 0x7E

/-- The index of a symbol in `ALPHABET`: bar value plus space offset, or 0 where either pattern is in no table (R162). -/
def symbolIndex (bars spaces : List Bool) : Nat :=
  match barTable.lookup bars, spaceTable.lookup spaces with
  | some v, some o => v + o
  | _, _ => 0

/-- `decode(bars, spaces)` (R162). -/
def decodeSymbol (bars spaces : List Bool) : Byte :=
  alphabet.getD (symbolIndex bars spaces) noMatch

end Sys2Proof.Machine
end

