-- ==== Sys2Proof/Machine/Arith.lean ====
section
/-! DEFINITION. The arithmetic of 00_scope.md R8 and R9 and the heading error function (44_controller.md R246). All of it
is over the integers; the rule that stores a result says how it fits its register. Floor division `div` by a positive
number and its non-negative remainder `mod` are Lean's `/` and `%` on `Int`, and `trunc` is `Int.tdiv`. -/

namespace Sys2Proof.Machine

/-- `ONE`: the raw Q16.16 value of 1.0 (R9). -/
abbrev one : Int := 65536

/-- `clamp(x, lo, hi) = min(max(x, lo), hi)` (R8). -/
abbrev clamp (x lo hi : Int) : Int := min (max x lo) hi

/-- `sat_s64(x) = clamp(x, -2^63, 2^63 - 1)` (R8). -/
abbrev satS64 (x : Int) : Int := clamp x (-2 ^ 63) (2 ^ 63 - 1)

/-- `sub64(a, b) = (a - b) mod 2^64` (R8). -/
abbrev sub64 (a b : Time) : Time := a - b

/-- `sign`: -1, 0 or +1 (R8). -/
def sign (x : Int) : Int := if 0 < x then 1 else if x < 0 then -1 else 0

/-- `wrap180`: one correction by 360 degrees at most, on raw Q16.16 degrees (44_controller.md R246). -/
def wrap180 (raw : Int) : Int :=
  if 180 * one < raw then raw - 360 * one
  else if raw < -180 * one then raw + 360 * one
  else raw

end Sys2Proof.Machine
end

