-- ==== Sys2Proof/Syntax.lean ====
section
/-! DEFINITION. The instructions of the T85 control core: nine input events (format E), eight command words (format C),
eight actuation words (format A) and three telemetry records (format T), one constructor of `Instr` for each row of
spec/opcode_table.json (00_scope.md R4, 30_encoding.md R90 to R97). -/

namespace Sys2Proof

/-- The operands of SNAP (40_snapshot_sampler.md R121): one valid bit for each field, the two line bits, the heading in
degrees and the distance in cm. -/
structure SnapArgs where
  headingValid  : Bool
  distanceValid : Bool
  leftValid     : Bool
  rightValid    : Bool
  leftBlack     : Bool
  rightBlack    : Bool
  heading       : Q16
  distance      : Q16
deriving DecidableEq, Repr

/-- The fields of a STATUS record after its `kind` byte, with the widths of 30_encoding.md R97. -/
structure StatusFields where
  modeTag : Byte
  left    : BitVec 64
  right   : BitVec 64
  target  : BitVec 64
  bearing : BitVec 16
  error   : BitVec 72
  control : Q16
  kp      : Q16
  ki      : Q16
  kd      : Q16
  speed   : BitVec 16
deriving DecidableEq, Repr

/-- A command the Motion Controller can pop (43_commands.md R192 to R199). -/
inductive Command where
  | setmodeIdle
  | setmodeFwd
  | setmodeBa
  | setmodeTurn
  | setticks (n : BitVec 32)
  | setbear (delta : BitVec 32)
  | setgain (sel : Byte) (value : Q16)
  | rstenc
deriving DecidableEq, Repr

/-- One call of the Motor Actuation Interface (45_actuation_telemetry.md R271 to R278). -/
inductive Actuation where
  | fwd
  | bwd
  | rcw
  | rccw
  | stop
  | speed (v : BitVec 16)
  | tiltl
  | tiltr
deriving DecidableEq, Repr

/-- One entry of the Telemetry Channel (45_actuation_telemetry.md R291 to R293). A BARCODE record's `len` is the length
of its payload. -/
inductive Record where
  | status (f : StatusFields)
  | barcode (payload : List Byte)
  | diag (code : Byte)
deriving DecidableEq, Repr

/-- The instructions: one constructor for each row of spec/opcode_table.json, in the table's order. -/
inductive Instr where
  -- format E: the nine input events
  | reset
  | ledge (t : Time)
  | redge (t : Time)
  | pedgeR (t : Time)
  | pedgeF (t : Time)
  | snap (a : SnapArgs)
  | cpush (c : CommandWord)
  | ctick (lockFail : Byte)
  | tpop
  -- format C: the eight command words
  | setmodeIdle
  | setmodeFwd
  | setmodeBa
  | setmodeTurn
  | setticks (n : BitVec 32)
  | setbear (delta : BitVec 32)
  | setgain (sel : Byte) (value : Q16)
  | rstenc
  -- format A: the eight actuation words
  | fwd
  | bwd
  | rcw
  | rccw
  | stop
  | speed (v : BitVec 16)
  | tiltl
  | tiltr
  -- format T: the three telemetry records
  | status (f : StatusFields)
  | barcode (payload : List Byte)
  | diag (code : Byte)
deriving DecidableEq, Repr

/-- The row of the table that a command belongs to. -/
def Command.toInstr : Command → Instr
  | .setmodeIdle => .setmodeIdle
  | .setmodeFwd => .setmodeFwd
  | .setmodeBa => .setmodeBa
  | .setmodeTurn => .setmodeTurn
  | .setticks n => .setticks n
  | .setbear delta => .setbear delta
  | .setgain sel value => .setgain sel value
  | .rstenc => .rstenc

/-- The row of the table that an actuation word belongs to. -/
def Actuation.toInstr : Actuation → Instr
  | .fwd => .fwd
  | .bwd => .bwd
  | .rcw => .rcw
  | .rccw => .rccw
  | .stop => .stop
  | .speed v => .speed v
  | .tiltl => .tiltl
  | .tiltr => .tiltr

/-- The row of the table that a telemetry record belongs to. -/
def Record.toInstr : Record → Instr
  | .status f => .status f
  | .barcode payload => .barcode payload
  | .diag code => .diag code

/-- The four formats of 30_encoding.md R91. -/
inductive Format where
  | E
  | C
  | A
  | T
deriving DecidableEq, Repr

/-- The format of an instruction: the port its word travels on (30_encoding.md R91). -/
def Instr.format : Instr → Format
  | .reset => .E
  | .ledge _ => .E
  | .redge _ => .E
  | .pedgeR _ => .E
  | .pedgeF _ => .E
  | .snap _ => .E
  | .cpush _ => .E
  | .ctick _ => .E
  | .tpop => .E
  | .setmodeIdle => .C
  | .setmodeFwd => .C
  | .setmodeBa => .C
  | .setmodeTurn => .C
  | .setticks _ => .C
  | .setbear _ => .C
  | .setgain _ _ => .C
  | .rstenc => .C
  | .fwd => .A
  | .bwd => .A
  | .rcw => .A
  | .rccw => .A
  | .stop => .A
  | .speed _ => .A
  | .tiltl => .A
  | .tiltr => .A
  | .status _ => .T
  | .barcode _ => .T
  | .diag _ => .T

/-- A word as it stands on its port. The port tells the format (30_encoding.md R91: "The length of a word is known from
the port it travels on"), so the constructor is part of the data. A telemetry record is a sequence of bytes, `kind` first. -/
inductive PortWord where
  | event (w : EventWord)
  | command (w : CommandWord)
  | actuation (w : ActuationWord)
  | telemetry (bytes : List Byte)
deriving DecidableEq, Repr

/-- The format of a word on a port. -/
def PortWord.format : PortWord → Format
  | .event _ => .E
  | .command _ => .C
  | .actuation _ => .A
  | .telemetry _ => .T

end Sys2Proof
end

