-- ==== Sys2Proof/Config.lean ====
section
/-! DEFINITION. What an instance of the block fixes (00_scope.md R6): the six modes and their characters, the parameters
with the ranges R6 gives them, and the values the spec leaves open, as constants without a body. -/

namespace Sys2Proof

/-- The six modes (10_state.md R23). -/
inductive Mode where
  | idle
  | forward
  | barcodeApproach
  | reverseTransition
  | reverse
  | turn
deriving DecidableEq, Repr

/-- The 3-bit code of a mode (10_state.md R23); codes 6 and 7 name no mode. -/
def Mode.code : Mode → BitVec 3
  | .idle => 0
  | .forward => 1
  | .barcodeApproach => 2
  | .reverseTransition => 3
  | .reverse => 4
  | .turn => 5

/-- `MODE_CHAR`: the character that names each mode (00_scope.md R6). -/
structure ModeChars where
  idle              : Byte
  forward           : Byte
  barcodeApproach   : Byte
  reverseTransition : Byte
  reverse           : Byte
  turn              : Byte
deriving DecidableEq, Repr

/-- The character of a mode. -/
def ModeChars.of (c : ModeChars) : Mode → Byte
  | .idle => c.idle
  | .forward => c.forward
  | .barcodeApproach => c.barcodeApproach
  | .reverseTransition => c.reverseTransition
  | .reverse => c.reverse
  | .turn => c.turn

/-- The six characters, in the order of the modes' codes. -/
def ModeChars.toList (c : ModeChars) : List Byte :=
  [c.idle, c.forward, c.barcodeApproach, c.reverseTransition, c.reverse, c.turn]

/-- `THRESH_SEED_POLICY` (00_scope.md R6, 42_barcode.md R156). -/
inductive SeedPolicy where
  | once
  | perSymbol
deriving DecidableEq, Repr

/-- The parameters of 00_scope.md R6 that the rules read. They are plain data of one instance of the block, so that the
rules hold, and are stated, for every value in range. -/
structure Params where
  steadyWindow    : Nat
  tolTicks        : Nat
  tolDeg          : Nat
  obstacleCm      : Nat
  rtDwellTicks    : Nat
  telemPeriodMove : Nat
  telemPeriodIdle : Nat
  lineCorrMult    : Nat
  wdGain          : Nat
  tiltCap         : Nat
  speedMax        : Nat
  encDebounce     : Nat
  cmdDepth        : Nat
  telemDepth      : Nat
  assembledMax    : Nat
  telemRetryMax   : Nat
  seedPolicy      : SeedPolicy
  modeChars       : ModeChars
deriving DecidableEq, Repr

/-- The default mode characters 'p', 'f', 'b', 's', 'r', 't' (00_scope.md R6, 10_state.md R23). -/
def ModeChars.spec : ModeChars where
  idle              := 0x70
  forward           := 0x66
  barcodeApproach   := 0x62
  reverseTransition := 0x73
  reverse           := 0x72
  turn              := 0x74

/-- The defaults of 00_scope.md R6 (log entry 1: an instance other than this one has other values in the ranges). -/
def Params.spec : Params where
  steadyWindow    := 50
  tolTicks        := 2
  tolDeg          := 3
  obstacleCm      := 15
  rtDwellTicks    := 10
  telemPeriodMove := 100
  telemPeriodIdle := 100
  lineCorrMult    := 2
  wdGain          := 1
  tiltCap         := 8
  speedMax        := 65535
  encDebounce     := 0
  cmdDepth        := 8
  telemDepth      := 16
  assembledMax    := 32
  telemRetryMax   := 3
  seedPolicy      := .once
  modeChars       := ModeChars.spec

/-- Every parameter is in the range 00_scope.md R6 states for it, and `MODE_CHAR` is injective. -/
abbrev Params.Valid (p : Params) : Prop :=
  (1 ≤ p.steadyWindow ∧ p.steadyWindow ≤ 65535) ∧
  p.tolTicks ≤ 2 ^ 63 ∧
  p.tolDeg ≤ 180 ∧
  p.obstacleCm ≤ 32767 ∧
  (1 ≤ p.rtDwellTicks ∧ p.rtDwellTicks ≤ 65535) ∧
  (1 ≤ p.telemPeriodMove ∧ p.telemPeriodMove ≤ 65535) ∧
  (1 ≤ p.telemPeriodIdle ∧ p.telemPeriodIdle ≤ 65535) ∧
  p.lineCorrMult ≤ 255 ∧
  p.wdGain ≤ 255 ∧
  p.tiltCap ≤ 255 ∧
  p.speedMax ≤ 65535 ∧
  p.encDebounce < 2 ^ 64 ∧
  1 ≤ p.cmdDepth ∧
  1 ≤ p.telemDepth ∧
  (2 ≤ p.assembledMax ∧ p.assembledMax ≤ 255) ∧
  (1 ≤ p.telemRetryMax ∧ p.telemRetryMax ≤ 255) ∧
  p.modeChars.toList.Nodup

/-- `GAINS_RESET` (00_scope.md R6; 93_implementation_defined.md U1, `any value`): the value of gain `sel` (0 to 5, the selectors of
10_state.md R29) after the RESET event number `n`. DESIGN CHOICE, log entry 7. -/
opaque Config.resetGain : (n sel : Nat) → Q16

/-- `SNAPSHOT_RESET` (U2, `any value`), heading after the RESET event number `n`. DESIGN CHOICE, log entry 7. -/
opaque Config.resetHeading : (n : Nat) → Q16

/-- `SNAPSHOT_RESET` (U2), distance after the RESET event number `n`. -/
opaque Config.resetDistance : (n : Nat) → Q16

/-- `SNAPSHOT_RESET` (U2), left line bit after the RESET event number `n`. -/
opaque Config.resetLeftBlack : (n : Nat) → Bool

/-- `SNAPSHOT_RESET` (U2), right line bit after the RESET event number `n`. -/
opaque Config.resetRightBlack : (n : Nat) → Bool

/-- How long the text of a status record is: `fmt_status` (00_scope.md R6) renders it as at most 100 bytes. -/
opaque Config.fmtStatusLength : StatusFields → Fin 101

/-- The bytes of the text of a status record, by index (log entry 14). -/
opaque Config.fmtStatusByte : StatusFields → Nat → Byte

/-- `fmt_status` (00_scope.md R6, 93_implementation_defined.md U19): the text of a status record. No rule reads it. -/
def Config.fmtStatus (f : StatusFields) : List Byte :=
  (List.range (Config.fmtStatusLength f).val).map (Config.fmtStatusByte f)

end Sys2Proof
end

