-- ==== Sys2Proof/Machine/State.lean ====
section
/-! DEFINITION. The state of the block (10_state.md, 20_memory.md R60), the reasons a step can stop, and the state after
reset (10_state.md R45). The registers stand in the four groups of 10_state.md R20, one owner each, beside the two queues;
five more fields are the MODEL's own and hold no register of the spec: `par`, `inbox`, `actOut`, `telemOut`, `draws`. -/

namespace Sys2Proof.Machine

/-- The encoder registers (R21, R22). -/
structure EncoderRegs where
  leftTicks  : BitVec 64
  rightTicks : BitVec 64
  lSeen      : Bool
  rSeen      : Bool
  lLastT     : Time
  rLastT     : Time
deriving DecidableEq, Repr

/-- The six gains, raw Q16.16 (R29). -/
structure Gains where
  kpF : Q16
  kiF : Q16
  kdF : Q16
  kpT : Q16
  kiT : Q16
  kdT : Q16
deriving DecidableEq, Repr

/-- The controller registers (R23 to R31). `lastError` (66 bits), `errSum` and `ctrl` are signed. -/
structure ControllerRegs where
  mode          : Mode
  targetTicks   : BitVec 64
  targetBearing : BitVec 16
  lastError     : BitVec 66
  errSum        : BitVec 64
  steadyCounter : BitVec 16
  gains         : Gains
  ctrl          : Q16
  speed         : BitVec 16
  telemCounter  : BitVec 16
deriving DecidableEq, Repr

/-- The snapshot registers (R32). -/
structure SnapshotRegs where
  heading    : Q16
  distance   : Q16
  leftBlack  : Bool
  rightBlack : Bool
deriving DecidableEq, Repr

/-- The decoder's sequencing state (R33). -/
inductive BcState where
  | idle
  | accumulating
deriving DecidableEq, Repr

/-- The barcode registers (R33 to R38). `edgeCount` is the 4-bit register's range 0 to 8: R33 says that 9 is never a
stored value. `assembled` is the part of the byte buffer in use, so `asm_len` is its length (log entry 9). -/
structure BarcodeRegs where
  state       : BcState
  edgeCount   : Fin 9
  prevEdgeT   : Time
  barW        : Vector Time 5
  spaceW      : Vector Time 4
  threshValid : Bool
  threshold   : BitVec 65
  reversed    : Bool
  assembled   : List Byte
deriving DecidableEq, Repr

/-- `asm_len` (R38). -/
abbrev BarcodeRegs.asmLen (b : BarcodeRegs) : Nat := b.assembled.length

/-- The whole state. The model's own fields: `par`, the parameters of the instance (00_scope.md R6), which no event
writes; `inbox`, the part of the trace that is not yet handled, oldest first; `actOut`, the actuation output stream so far
(45_actuation_telemetry.md R270), and `telemOut`, the records TPOP has handed to the host so far (R296), oldest first: outputs that no rule
reads back (10_state.md R41 c); `draws`, how many RESET events have drawn the values that R45 leaves unspecified. -/
structure State where
  enc      : EncoderRegs
  ctl      : ControllerRegs
  snap     : SnapshotRegs
  bc       : BarcodeRegs
  cmdQ     : List CommandWord
  telemQ   : List Record
  par      : Params
  inbox    : List PortWord
  actOut   : List Actuation
  telemOut : List Record
  draws    : Nat
deriving DecidableEq, Repr

/-- A fault stops the machine. It has no constructor: "No condition in this core is fatal to the process"
(60_exceptions.md R300), and the treatment `fault` is never used (93_implementation_defined.md, part 1). -/
inductive Fault where
deriving DecidableEq, Repr

/-- Why a step has no meaning to give. -/
inductive Refusal where
  /-- Raised by `exec` for an instruction that has no meaning yet. Safe: the machine stops. No arm answers it. -/
  | notModelled (mnemonic : String)
  /-- Raised by `step` for a format A word in `inbox` that is none of the eight words of R96. Safe: the machine stops where
  the spec has no such word. -/
  | noSuchActuation (w : ActuationWord)
  /-- Raised by `step` for a telemetry record in `inbox` that is none of the three of R97. Safe: as above. -/
  | noSuchRecord (bytes : List Byte)
deriving DecidableEq, Repr

/-- The outcome of a meaning. -/
abbrev Result : Type := Host.Outcome State Fault Refusal

/-- The encoder registers after reset (R45). -/
def EncoderRegs.reset : EncoderRegs where
  leftTicks  := 0
  rightTicks := 0
  lSeen      := false
  rSeen      := false
  lLastT     := 0
  rLastT     := 0

/-- The controller registers after reset, the gains being `g` (R45). -/
def ControllerRegs.reset (g : Gains) : ControllerRegs where
  mode          := .idle
  targetTicks   := 0
  targetBearing := 0
  lastError     := 0
  errSum        := 0
  steadyCounter := 0
  gains         := g
  ctrl          := 0
  speed         := 0
  telemCounter  := 0

/-- The barcode registers after reset (R45). -/
def BarcodeRegs.reset : BarcodeRegs where
  state       := .idle
  edgeCount   := 0
  prevEdgeT   := 0
  barW        := Vector.replicate 5 0
  spaceW      := Vector.replicate 4 0
  threshValid := false
  threshold   := 0
  reversed    := false
  assembled   := []

/-- Gains of 0. DESIGN CHOICE, log entry 5 (unsafe): R45 gives the gains no reset value. -/
def Gains.zero : Gains := ⟨0, 0, 0, 0, 0, 0⟩

/-- A snapshot of zeros. DESIGN CHOICE, log entry 6 (unsafe): R45 gives the snapshot no reset value. -/
def SnapshotRegs.zero : SnapshotRegs := ⟨0, 0, false, false⟩

/-- The machine right after reset (10_state.md R45): every register at its reset value, both queues empty, nothing
emitted. The gains and the snapshot, which R45 marks unspecified, are 0 here (log entries 5 and 6); a RESET event draws them
(log entry 7). The parameters are the defaults of 00_scope.md R6 (log entry 1) and no event is waiting (log entry 2). -/
def State.reset : State where
  enc      := EncoderRegs.reset
  ctl      := ControllerRegs.reset Gains.zero
  snap     := SnapshotRegs.zero
  bc       := BarcodeRegs.reset
  cmdQ     := []
  telemQ   := []
  par      := Params.spec
  inbox    := []
  actOut   := []
  telemOut := []
  draws    := 0

end Sys2Proof.Machine
end

