-- ==== Sys2Proof/Machine/Operands.lean ====
section
/-! DEFINITION. How the rules read their operands (30_encoding.md R98; 10_state.md R10, R29; 44_controller.md R211 step 2):
registers and operand fields as the integers the arithmetic works on, and the gain a selector names. -/

namespace Sys2Proof.Machine

/-- A raw Q16.16 operand or register as an integer (00_scope.md R9; R98 c and d). -/
abbrev Q16.raw (q : Q16) : Int := q.toInt

/-- The `s32` operand of SETTICKS and SETBEAR (R98 b). -/
abbrev s32 (v : BitVec 32) : Int := v.toInt

/-- The heading in the snapshot, raw Q16.16 degrees. -/
abbrev State.heading (s : State) : Int := Q16.raw s.snap.heading

/-- The distance in the snapshot, raw Q16.16 cm. -/
abbrev State.distance (s : State) : Int := Q16.raw s.snap.distance

/-- `L`: the left count, as an integer. -/
abbrev State.left (s : State) : Int := s.enc.leftTicks.toNat

/-- `R`: the right count, as an integer. -/
abbrev State.right (s : State) : Int := s.enc.rightTicks.toNat

/-- The distance target, as an integer. -/
abbrev State.target (s : State) : Int := s.ctl.targetTicks.toNat

/-- The gains with gain `sel` replaced (10_state.md R29); a selector above 5 is reserved and replaces none (43_commands.md
R198). -/
def Gains.set (g : Gains) (sel : Byte) (v : Q16) : Gains :=
  match sel.toNat with
  | 0 => { g with kpF := v }
  | 1 => { g with kiF := v }
  | 2 => { g with kdF := v }
  | 3 => { g with kpT := v }
  | 4 => { g with kiT := v }
  | 5 => { g with kdT := v }
  | _ => g

/-- Two gain sets: the Turn set in Turn, the forward set in every other mode (10_state.md R29; 45_actuation_telemetry.md R291). -/
def ControllerRegs.activeGains (c : ControllerRegs) : Q16 × Q16 × Q16 :=
  match c.mode with
  | .turn => (c.gains.kpT, c.gains.kiT, c.gains.kdT)
  | .idle => (c.gains.kpF, c.gains.kiF, c.gains.kdF)
  | .forward => (c.gains.kpF, c.gains.kiF, c.gains.kdF)
  | .barcodeApproach => (c.gains.kpF, c.gains.kiF, c.gains.kdF)
  | .reverseTransition => (c.gains.kpF, c.gains.kiF, c.gains.kdF)
  | .reverse => (c.gains.kpF, c.gains.kiF, c.gains.kdF)

end Sys2Proof.Machine
end

