-- ==== Sys2Proof/Machine/Flags.lean ====
section
/-! DEFINITION. Every one-bit decision of the rules that is a flag or feeds one (10_state.md R40; the block has no arithmetic
condition codes): whether an encoder edge qualifies, whether a width is wide, whether a bar seeds the threshold, and the
conditions the controller tests. -/

namespace Sys2Proof.Machine

/-- An edge with timestamp `t` qualifies when none of its wheel has been counted since reset, or at least `ENC_DEBOUNCE`
units have passed since the last counted one (41_encoder.md R130). -/
abbrev qualifies (debounce : Nat) (seen : Bool) (lastT t : Time) : Prop :=
  seen = false ∨ debounce ≤ (sub64 t lastT).toNat

/-- `bit(w)`: wide is above the threshold, narrow is below it or equal (42_barcode.md R157). -/
def wide (threshold : BitVec 65) (w : Time) : Bool := threshold.toNat < w.toNat

/-- The bar about to be measured seeds the threshold (42_barcode.md R155, R156). -/
abbrev seedsThreshold (policy : SeedPolicy) (b : BarcodeRegs) : Prop :=
  b.threshValid = false ∨ (policy = .perSymbol ∧ b.edgeCount.val = 0)

/-- The obstacle condition, a signed comparison of raw Q16.16 values (44_controller.md R230). -/
abbrev State.obstacle (s : State) : Prop := s.distance < (s.par.obstacleCm : Int) * one

/-- The zero-control zone `e <= TOL_TICKS` (44_controller.md R232). -/
abbrev State.inZone (s : State) (e : Int) : Prop := e ≤ (s.par.tolTicks : Int)

/-- The Turn error is within tolerance: `abs(e) <= TOL_DEG * ONE` (44_controller.md R245). -/
abbrev State.settled (s : State) (e : Int) : Prop := (e.natAbs : Int) ≤ (s.par.tolDeg : Int) * one

/-- The steady window is full after `n` ticks (44_controller.md R233, R245). -/
abbrev State.windowFull (s : State) (n : Nat) : Prop := s.par.steadyWindow ≤ n

end Sys2Proof.Machine
end

