-- ==== Sys2Proof/Machine/Ops.lean ====
section
/-! DEFINITION. The named operations the meanings share: the primitives `Push`, `Pop`, `Emit` and `enter` of 00_scope.md R11
and the one-register updates. There is no operation that takes an exception and none that returns from one: "Entry to a
handler saves nothing and changes nothing that this spec can see" and "There is no return instruction" (60_exceptions.md R310, R311); an
error class is a name for the reader (R300; Machine/Errors.lean). There is no addressable memory either (20_memory.md R60). -/

namespace Sys2Proof.Machine

/-! ## Queues (20_memory.md R63, R64) -/

/-- `Push(q, v)` on a queue of capacity `cap`: a full queue is unchanged and `v` is lost (R63). -/
def pushBounded {α : Type} (cap : Nat) (q : List α) (v : α) : List α :=
  if q.length < cap then q ++ [v] else q

/-- `Push(cmd_q, c)`. -/
def State.pushCmd (s : State) (c : CommandWord) : State :=
  { s with cmdQ := pushBounded s.par.cmdDepth s.cmdQ c }

/-- `Push(telem_q, r)`. -/
def State.pushTelem (s : State) (r : Record) : State :=
  { s with telemQ := pushBounded s.par.telemDepth s.telemQ r }

/-! ## The actuation output stream (45_actuation_telemetry.md R270) -/

/-- `Emit` of several words, in order. -/
def State.emitAll (s : State) (ws : List Actuation) : State :=
  { s with actOut := s.actOut ++ ws }

/-- `Emit(ACT, w)`. -/
def State.emit (s : State) (w : Actuation) : State := s.emitAll [w]

/-! ## Register updates -/

/-- `enter(m)`: the only writer of `mode` (44_controller.md R215). -/
def State.enter (s : State) (m : Mode) : State :=
  { s with ctl := { s.ctl with mode := m, lastError := 0, errSum := 0, steadyCounter := 0, ctrl := 0, speed := 0 } }

/-- `target_ticks <- n`. -/
def State.setTarget (s : State) (n : BitVec 64) : State :=
  { s with ctl := { s.ctl with targetTicks := n } }

/-- `target_bearing <- n`. -/
def State.setBearing (s : State) (n : BitVec 16) : State :=
  { s with ctl := { s.ctl with targetBearing := n } }

/-- `steady_counter <- n`. Every rule that counts here enters another mode, which writes 0, once `n` reaches a bound of at most
65535 (10_state.md R28), so the store keeps `n` whole. -/
def State.setSteady (s : State) (n : Nat) : State :=
  { s with ctl := { s.ctl with steadyCounter := BitVec.ofNat 16 n } }

/-- `speed <- n`; `n` is at most `SPEED_MAX` (44_controller.md R236). -/
def State.setSpeed (s : State) (n : Nat) : State :=
  { s with ctl := { s.ctl with speed := BitVec.ofNat 16 n } }

/-- `telem_counter <- n`; a stored `n` is below a period of at most 65535 (45_actuation_telemetry.md R289). -/
def State.setTelemCounter (s : State) (n : Nat) : State :=
  { s with ctl := { s.ctl with telemCounter := BitVec.ofNat 16 n } }

/-- `ctrl <- c` and `last_error <- e`: the two writes every control law makes. `c` is clamped and `e` fits 66 signed bits
(10_state.md R26, R30). -/
def State.storeLaw (s : State) (c e : Int) : State :=
  { s with ctl := { s.ctl with ctrl := BitVec.ofInt 32 c, lastError := BitVec.ofInt 66 e } }

/-- `err_sum <- n`, which is saturated (44_controller.md R247). -/
def State.setErrSum (s : State) (n : Int) : State :=
  { s with ctl := { s.ctl with errSum := BitVec.ofInt 64 n } }

/-- A controller-issued write of the two counts; it leaves the debounce registers alone (41_encoder.md R136). -/
def State.setCounts (s : State) (l r : BitVec 64) : State :=
  { s with enc := { s.enc with leftTicks := l, rightTicks := r } }

/-- The gains replaced. -/
def State.setGains (s : State) (g : Gains) : State :=
  { s with ctl := { s.ctl with gains := g } }

/-- The barcode registers replaced. -/
def State.setBarcode (s : State) (b : BarcodeRegs) : State := { s with bc := b }

end Sys2Proof.Machine
end

