-- ==== Sys2Proof/Machine/Barcode.lean ====
section
/-! DEFINITION. PEDGE.R and PEDGE.F: the Barcode Decode Engine (42_barcode.md R150 to R170). -/

namespace Sys2Proof.Machine

/-! ## Widths -/

/-- The interval that ends at `t` (R152, R155). -/
abbrev BarcodeRegs.interval (b : BarcodeRegs) (t : Time) : Time := sub64 t b.prevEdgeT

/-- One interval more in the window. From 8 the count would be 9, which is never stored: the symbol is then complete and R169
writes 0 in the same event (10_state.md R33). -/
def BarcodeRegs.nextCount (b : BarcodeRegs) : Fin 9 := Fin.ofNat 9 (b.edgeCount.val + 1)

/-- A space is due: an odd number of intervals is in the window (R152). -/
abbrev BarcodeRegs.spaceDue (b : BarcodeRegs) : Prop := b.edgeCount.val % 2 = 1

/-- The space width that ends at `t` recorded (R152). -/
def BarcodeRegs.recordSpace (b : BarcodeRegs) (t : Time) : BarcodeRegs :=
  { b with
    spaceW    := b.spaceW.setIfInBounds (b.edgeCount.val / 2) (b.interval t)
    prevEdgeT := t
    edgeCount := b.nextCount }

/-- The threshold seeded with twice the width `w`, where this bar seeds it (R155, R156). -/
def BarcodeRegs.seed (b : BarcodeRegs) (policy : SeedPolicy) (w : Time) : BarcodeRegs :=
  if seedsThreshold policy b then { b with threshold := BitVec.ofNat 65 (2 * w.toNat), threshValid := true } else b

/-- The bar width that ends at `t` recorded, the threshold seeded first where it is due (R155). -/
def BarcodeRegs.recordBar (b : BarcodeRegs) (policy : SeedPolicy) (t : Time) : BarcodeRegs :=
  { b.seed policy (b.interval t) with
    barW      := b.barW.setIfInBounds (b.edgeCount.val / 2) (b.interval t)
    prevEdgeT := t
    edgeCount := b.nextCount }

/-! ## Classification -/

/-- `bars_n`: the bars as bits, first measured leftmost (R161). -/
def BarcodeRegs.bars (b : BarcodeRegs) : List Bool := b.barW.toList.map (wide b.threshold)

/-- `spaces_n`: the spaces as bits, first measured leftmost (R161). -/
def BarcodeRegs.spaces (b : BarcodeRegs) : List Bool := b.spaceW.toList.map (wide b.threshold)

/-- `decode(bars_n, spaces_n)` (R161, R162). -/
def BarcodeRegs.normalChar (b : BarcodeRegs) : Byte := decodeSymbol b.bars b.spaces

/-- `decode(bars_r, spaces_r)`: both strings read right to left (R161, R162). -/
def BarcodeRegs.reversedChar (b : BarcodeRegs) : Byte := decodeSymbol b.bars.reverse b.spaces.reverse

/-- What a complete symbol is (R167, R168). -/
inductive Symbol where
  /-- A first symbol that is `*`, read in the orientation `reversed`. -/
  | start (reversed : Bool)
  /-- A first symbol that is `*` in neither orientation (class E2). -/
  | notFound
  /-- A later symbol that is `*`. -/
  | endScan
  /-- A later symbol that is any other character. -/
  | char (c : Byte)
deriving DecidableEq, Repr

/-- What the symbol in the window is: R167 for the first of a scan, R168 for a later one. -/
def BarcodeRegs.classify (b : BarcodeRegs) : Symbol :=
  if b.assembled = [] then
    if b.normalChar = sentinel then .start false
    else if b.reversedChar = sentinel then .start true
    else .notFound
  else
    let c := if b.reversed then b.reversedChar else b.normalChar
    if c = sentinel then .endScan else .char c

/-- The record a complete symbol has the engine push, if any: DIAG for a start that is not found (R167), BARCODE at an end
sentinel, its payload being what stands after the start sentinel (R168). -/
def BarcodeRegs.symbolRecord (b : BarcodeRegs) : Option Record :=
  match b.classify with
  | .start _ => none
  | .notFound => some (.diag 0x01)
  | .endScan => some (.barcode (b.assembled.drop 1))
  | .char _ => none

/-- The scan registers after a complete symbol (R167, R168): a character that finds the buffer full is dropped. -/
def BarcodeRegs.applySymbol (b : BarcodeRegs) (assembledMax : Nat) : BarcodeRegs :=
  match b.classify with
  | .start r => { b with reversed := r, assembled := [sentinel] }
  | .notFound => b
  | .endScan => { b with reversed := false, assembled := [] }
  | .char c => if b.asmLen < assembledMax then { b with assembled := b.assembled ++ [c] } else b

/-- The symbol window cleared (R169). -/
def BarcodeRegs.clearWindow (b : BarcodeRegs) : BarcodeRegs :=
  { b with state := .idle, edgeCount := 0, barW := Vector.replicate 5 0, spaceW := Vector.replicate 4 0 }

/-- `Push` of a record, where there is one, without the telemetry lock (20_memory.md R62). -/
def State.pushTelem? (s : State) (r : Option Record) : State :=
  match r with
  | some r => s.pushTelem r
  | none => s

/-- A complete symbol: classify, act, push, clear the window (R160). The window is in `b`. -/
def State.completeSymbol (s : State) (b : BarcodeRegs) : State :=
  (s.setBarcode (b.applySymbol s.par.assembledMax).clearWindow).pushTelem? b.symbolRecord

/-! ## The two events -/

/-- PEDGE.R (R151 in Idle, R152 in Accumulating): in Idle the symbol-start edge, which measures nothing; in Accumulating a
space, where one is due; any other rising edge is ignored, its timestamp with it (R158). -/
def execPedgeR (t : Time) (s : State) : Result :=
  match s.bc.state with
  | .idle => .next (s.setBarcode { s.bc with state := .accumulating, edgeCount := 0, prevEdgeT := t })
  | .accumulating => if s.bc.spaceDue then .next (s.setBarcode (s.bc.recordSpace t)) else .next s

/-- PEDGE.F (R155): a bar, where one is due; the ninth interval completes the symbol. A falling edge in Idle, and one where
a space is due, is ignored (R158). -/
def execPedgeF (t : Time) (s : State) : Result :=
  match s.bc.state with
  | .idle => .next s
  | .accumulating =>
    if s.bc.spaceDue then .next s
    else if s.bc.edgeCount.val = 8 then .next (s.completeSymbol (s.bc.recordBar s.par.seedPolicy t))
    else .next (s.setBarcode (s.bc.recordBar s.par.seedPolicy t))

end Sys2Proof.Machine
end

