-- ==== Sys2Proof/Machine/Encoder.lean ====
section
/-! DEFINITION. LEDGE and REDGE: the encoder counters and the edge debouncer (41_encoder.md R130 to R135). -/

namespace Sys2Proof.Machine

/-- LEDGE (41_encoder.md R131). The count wraps at 2^64 (R135). -/
def execLedge (t : Time) (s : State) : Result :=
  if qualifies s.par.encDebounce s.enc.lSeen s.enc.lLastT t then
    .next { s with enc := { s.enc with leftTicks := s.enc.leftTicks + 1, lSeen := true, lLastT := t } }
  else .next s

/-- REDGE (41_encoder.md R132). -/
def execRedge (t : Time) (s : State) : Result :=
  if qualifies s.par.encDebounce s.enc.rSeen s.enc.rLastT t then
    .next { s with enc := { s.enc with rightTicks := s.enc.rightTicks + 1, rSeen := true, rLastT := t } }
  else .next s

end Sys2Proof.Machine
end

