-- ==== Sys2Proof/Machine/Reset.lean ====
section
/-! DEFINITION. RESET (70_reset_and_hazards.md R330). -/

namespace Sys2Proof.Machine

/-- `GAINS_RESET` for the RESET event number `n`: free values (DESIGN CHOICE, log entry 7). -/
def Gains.draw (n : Nat) : Gains where
  kpF := Config.resetGain n 0
  kiF := Config.resetGain n 1
  kdF := Config.resetGain n 2
  kpT := Config.resetGain n 3
  kiT := Config.resetGain n 4
  kdT := Config.resetGain n 5

/-- `SNAPSHOT_RESET` for the RESET event number `n`: free values (DESIGN CHOICE, log entry 7). -/
def SnapshotRegs.draw (n : Nat) : SnapshotRegs where
  heading    := Config.resetHeading n
  distance   := Config.resetDistance n
  leftBlack  := Config.resetLeftBlack n
  rightBlack := Config.resetRightBlack n

/-- RESET (R330): every register and both queues take the values of 10_state.md R45, the entries of the queues being
discarded; the gains and the snapshot are drawn anew. The parameters, what has been emitted and handed out, and the rest of the
trace are outside the block and stay (R330 corner c). -/
def execReset (s : State) : Result :=
  .next
    { s with
      enc    := EncoderRegs.reset
      ctl    := ControllerRegs.reset (Gains.draw s.draws)
      snap   := SnapshotRegs.draw s.draws
      bc     := BarcodeRegs.reset
      cmdQ   := []
      telemQ := []
      draws  := s.draws + 1 }

end Sys2Proof.Machine
end

