-- ==== Sys2Proof/Machine/Snapshot.lean ====
section
/-! DEFINITION. SNAP: the publication of a sensor snapshot (40_snapshot_sampler.md R121). -/

namespace Sys2Proof.Machine

/-- The record after one publication: a field whose valid bit is 0 keeps its value (R121). -/
def SnapshotRegs.publish (r : SnapshotRegs) (a : SnapArgs) : SnapshotRegs where
  heading    := if a.headingValid then a.heading else r.heading
  distance   := if a.distanceValid then a.distance else r.distance
  leftBlack  := if a.leftValid then a.leftBlack else r.leftBlack
  rightBlack := if a.rightValid then a.rightBlack else r.rightBlack

/-- SNAP (R121): one replace of the whole record. -/
def execSnap (a : SnapArgs) (s : State) : Result :=
  .next { s with snap := s.snap.publish a }

end Sys2Proof.Machine
end

