-- ==== Sys2Proof/WellFormed.lean ====
section
/-! DEFINITION. Which instructions have an encoding. Every operand but one is as wide as its field, so its type is the
whole check; the payload of a BARCODE record is the one operand of variable length (30_encoding.md R97). -/

namespace Sys2Proof

/-- The longest payload a BARCODE record can carry: `len` is at most `ASSEMBLED_MAX` − 1 (30_encoding.md R97) and
`ASSEMBLED_MAX` at most 255 (00_scope.md R6). It is the bound of every instance, not of the one at hand (DESIGN CHOICE, log entry 21). -/
abbrev maxPayload : Nat := 254

/-- An instruction is well formed when its encoding exists. The reserved operands of SETTICKS (negative) and SETGAIN
(selector above 5) are encodable: their words have a meaning, which is to change nothing (30_encoding.md R102). -/
def Instr.wf : Instr → Bool
  | .barcode payload => payload.length ≤ maxPayload
  | .reset => true
  | .ledge _ => true
  | .redge _ => true
  | .pedgeR _ => true
  | .pedgeF _ => true
  | .snap _ => true
  | .cpush _ => true
  | .ctick _ => true
  | .tpop => true
  | .setmodeIdle => true
  | .setmodeFwd => true
  | .setmodeBa => true
  | .setmodeTurn => true
  | .setticks _ => true
  | .setbear _ => true
  | .setgain _ _ => true
  | .rstenc => true
  | .fwd => true
  | .bwd => true
  | .rcw => true
  | .rccw => true
  | .stop => true
  | .speed _ => true
  | .tiltl => true
  | .tiltr => true
  | .status _ => true
  | .diag _ => true

end Sys2Proof
end

