-- ==== Sys2Proof/Decode.lean ====
section
/-! DEFINITION. The decoder of the four formats, total on any word of any port and rejecting by name, and after it the
encoder, both from the tables of 30_encoding.md (R92, R94, R96, R97). The mode characters are a parameter (`MODE_CHAR`,
00_scope.md R6), so both take it. The same tables numbered as spec/opcode_table.json numbers them stand at the end. -/

namespace Sys2Proof

/-- Why a word is not an instruction. -/
inductive DecodeError where
  /-- A format E word with `op` 0x08 to 0xFF (R101). -/
  | reservedEvent (op : Byte)
  /-- A format C word with `op` 0x00 or 0x06 to 0xFF, or a SETMODE whose `sub` is no commandable character (R102 a, b). -/
  | reservedCommand (op sub : Byte)
  /-- A format A word whose `op` is not 0x01 to 0x08 (R96: "The block never emits any other `op`"). -/
  | noSuchActuation (op : Byte)
  /-- A format A word other than SPEED whose `arg` is not 0 (R96). -/
  | actuationOperand (op : Byte)
  /-- A telemetry record whose `kind` is not 0x01, 0x02 or 0x03, or that has no byte at all (R97). -/
  | noSuchRecord (bytes : List Byte)
  /-- A telemetry record of a known `kind` whose length is not the one R97 gives it. -/
  | recordLength (bytes : List Byte)
deriving DecidableEq, Repr

/-! ## Byte sequences -/

/-- The number that a sequence of bytes writes, most significant byte first (20_memory.md R65). -/
def bytesToNat (bs : List Byte) : Nat :=
  bs.foldl (fun n b => n * 256 + b.toNat) 0

/-- `v` as `n` bytes, most significant byte first (20_memory.md R65). -/
def natToBytes : (n v : Nat) → List Byte
  | 0, _ => []
  | n + 1, v => natToBytes n (v / 256) ++ [BitVec.ofNat 8 v]

/-- The field of `w` bits that a record holds from byte `start` on, in `n` bytes. -/
def byteField (w : Nat) (bs : List Byte) (start n : Nat) : BitVec w :=
  BitVec.ofNat w (bytesToNat ((bs.drop start).take n))

/-! ## Decoding -/

/-- Format E (30_encoding.md R92): `op` = bits 79..72, `sub` = bits 71..64, `arg` = bits 63..0. Bits the table calls
ignored are not read. -/
def decodeEvent (w : EventWord) : Except DecodeError Instr :=
  let op : Byte := w.extractLsb' 72 8
  let sub : Byte := w.extractLsb' 64 8
  let arg : BitVec 64 := w.extractLsb' 0 64
  if op = 0x00 then .ok .reset
  else if op = 0x01 then .ok (.ledge arg)
  else if op = 0x02 then .ok (.redge arg)
  else if op = 0x03 then (if sub.getLsbD 0 then .ok (.pedgeR arg) else .ok (.pedgeF arg))
  else if op = 0x04 then
    .ok (.snap
      { headingValid  := sub.getLsbD 0
        distanceValid := sub.getLsbD 1
        leftValid     := sub.getLsbD 2
        rightValid    := sub.getLsbD 3
        leftBlack     := sub.getLsbD 4
        rightBlack    := sub.getLsbD 5
        heading       := w.extractLsb' 32 32
        distance      := w.extractLsb' 0 32 })
  else if op = 0x05 then .ok (.cpush (w.extractLsb' 0 48))
  else if op = 0x06 then .ok (.ctick sub)
  else if op = 0x07 then .ok .tpop
  else .error (.reservedEvent op)

/-- Format C (30_encoding.md R94): `op` = bits 47..40, `sub` = bits 39..32, `arg` = bits 31..0. SETMODE with a character
that names no commandable mode is reserved (R102 b). -/
def decodeCommand (chars : ModeChars) (w : CommandWord) : Except DecodeError Command :=
  let op : Byte := w.extractLsb' 40 8
  let sub : Byte := w.extractLsb' 32 8
  let arg : BitVec 32 := w.extractLsb' 0 32
  if op = 0x01 then
    if sub = chars.of .idle then .ok .setmodeIdle
    else if sub = chars.of .forward then .ok .setmodeFwd
    else if sub = chars.of .barcodeApproach then .ok .setmodeBa
    else if sub = chars.of .turn then .ok .setmodeTurn
    else .error (.reservedCommand op sub)
  else if op = 0x02 then .ok (.setticks arg)
  else if op = 0x03 then .ok (.setbear arg)
  else if op = 0x04 then .ok (.setgain sub arg)
  else if op = 0x05 then .ok .rstenc
  else .error (.reservedCommand op sub)

/-- Format A (30_encoding.md R96): `op` = bits 23..16, `arg` = bits 15..0, 0 in every word but SPEED. -/
def decodeActuation (w : ActuationWord) : Except DecodeError Actuation :=
  let op : Byte := w.extractLsb' 16 8
  let arg : BitVec 16 := w.extractLsb' 0 16
  if op = 0x06 then .ok (.speed arg)
  else if op = 0x00 ∨ 0x08 < op.toNat then .error (.noSuchActuation op)
  else if arg ≠ 0 then .error (.actuationOperand op)
  else if op = 0x01 then .ok .fwd
  else if op = 0x02 then .ok .bwd
  else if op = 0x03 then .ok .rcw
  else if op = 0x04 then .ok .rccw
  else if op = 0x05 then .ok .stop
  else if op = 0x07 then .ok .tiltl
  else .ok .tiltr

/-- The fields of a STATUS record of 55 bytes, each at its place in 30_encoding.md R97 (bit 439 is the first bit of byte 0). -/
def decodeStatus (bs : List Byte) : StatusFields where
  modeTag := byteField 8 bs 1 1
  left    := byteField 64 bs 2 8
  right   := byteField 64 bs 10 8
  target  := byteField 64 bs 18 8
  bearing := byteField 16 bs 26 2
  error   := byteField 72 bs 28 9
  control := byteField 32 bs 37 4
  kp      := byteField 32 bs 41 4
  ki      := byteField 32 bs 45 4
  kd      := byteField 32 bs 49 4
  speed   := byteField 16 bs 53 2

/-- Format T (30_encoding.md R97): the first byte is `kind`, and in a BARCODE record the second is `len`. DESIGN CHOICE, log entry 21: R97
gives a DIAG record no code but 0x01 and a BARCODE record a `len` of at most this instance's `ASSEMBLED_MAX` − 1, and a tick pushes only some
STATUS records; a record given alone with another code, with a `len` up to 254, or with any STATUS fields is decoded all the same. -/
def decodeRecord (bs : List Byte) : Except DecodeError Record :=
  if bs.head? = some 0x01 then
    if bs.length = 55 then .ok (.status (decodeStatus bs)) else .error (.recordLength bs)
  else if bs.head? = some 0x02 then
    match bs with
    | _ :: len :: payload =>
      if payload.length = len.toNat ∧ len.toNat ≤ maxPayload then .ok (.barcode payload) else .error (.recordLength bs)
    | _ => .error (.recordLength bs)
  else if bs.head? = some 0x03 then
    match bs with
    | [_, code] => .ok (.diag code)
    | _ => .error (.recordLength bs)
  else .error (.noSuchRecord bs)

/-- The instruction a word on a port stands for. -/
def decode (chars : ModeChars) : PortWord → Except DecodeError Instr
  | .event w => decodeEvent w
  | .command w => (decodeCommand chars w).map Command.toInstr
  | .actuation w => (decodeActuation w).map Actuation.toInstr
  | .telemetry bs => (decodeRecord bs).map Record.toInstr

/-! ## Encoding -/

/-- A format E word from its three fields; the bits the table calls ignored are sent as 0. -/
def eventWord (op sub : Byte) (arg : BitVec 64) : EventWord :=
  op ++ sub ++ arg

/-- A format C word from its three fields. -/
def commandWord (op sub : Byte) (arg : BitVec 32) : CommandWord :=
  op ++ sub ++ arg

/-- A format A word from its two fields. -/
def actuationWord (op : Byte) (arg : BitVec 16) : ActuationWord :=
  op ++ arg

/-- The `sub` byte of a SNAP (30_encoding.md R92): valid bits 0 to 3, line bits 4 and 5, bits 7 and 6 sent as 0. -/
def SnapArgs.sub (a : SnapArgs) : Byte :=
  0#2 ++ BitVec.ofBool a.rightBlack ++ BitVec.ofBool a.leftBlack ++ BitVec.ofBool a.rightValid
    ++ BitVec.ofBool a.leftValid ++ BitVec.ofBool a.distanceValid ++ BitVec.ofBool a.headingValid

/-- The format C word of a command (30_encoding.md R94). -/
def encodeCommand (chars : ModeChars) : Command → CommandWord
  | .setmodeIdle => commandWord 0x01 (chars.of .idle) 0
  | .setmodeFwd => commandWord 0x01 (chars.of .forward) 0
  | .setmodeBa => commandWord 0x01 (chars.of .barcodeApproach) 0
  | .setmodeTurn => commandWord 0x01 (chars.of .turn) 0
  | .setticks n => commandWord 0x02 0 n
  | .setbear delta => commandWord 0x03 0 delta
  | .setgain sel value => commandWord 0x04 sel value
  | .rstenc => commandWord 0x05 0 0

/-- The format A word of a motor call (30_encoding.md R96). -/
def encodeActuation : Actuation → ActuationWord
  | .fwd => actuationWord 0x01 0
  | .bwd => actuationWord 0x02 0
  | .rcw => actuationWord 0x03 0
  | .rccw => actuationWord 0x04 0
  | .stop => actuationWord 0x05 0
  | .speed v => actuationWord 0x06 v
  | .tiltl => actuationWord 0x07 0
  | .tiltr => actuationWord 0x08 0

/-- The bytes of a telemetry record (30_encoding.md R97). -/
def encodeRecord : Record → List Byte
  | .status f =>
    0x01 :: (natToBytes 1 f.modeTag.toNat ++ natToBytes 8 f.left.toNat ++ natToBytes 8 f.right.toNat
      ++ natToBytes 8 f.target.toNat ++ natToBytes 2 f.bearing.toNat ++ natToBytes 9 f.error.toNat
      ++ natToBytes 4 f.control.toNat ++ natToBytes 4 f.kp.toNat ++ natToBytes 4 f.ki.toNat
      ++ natToBytes 4 f.kd.toNat ++ natToBytes 2 f.speed.toNat)
  | .barcode payload => 0x02 :: BitVec.ofNat 8 payload.length :: payload
  | .diag code => [0x03, code]

/-- The word of an instruction on its port. -/
def encode (chars : ModeChars) : Instr → PortWord
  | .reset => .event (eventWord 0x00 0 0)
  | .ledge t => .event (eventWord 0x01 0 t)
  | .redge t => .event (eventWord 0x02 0 t)
  | .pedgeR t => .event (eventWord 0x03 1 t)
  | .pedgeF t => .event (eventWord 0x03 0 t)
  | .snap a => .event (eventWord 0x04 a.sub (a.heading ++ a.distance))
  | .cpush c => .event (eventWord 0x05 0 (0#16 ++ c))
  | .ctick lockFail => .event (eventWord 0x06 lockFail 0)
  | .tpop => .event (eventWord 0x07 0 0)
  | .setmodeIdle => .command (encodeCommand chars .setmodeIdle)
  | .setmodeFwd => .command (encodeCommand chars .setmodeFwd)
  | .setmodeBa => .command (encodeCommand chars .setmodeBa)
  | .setmodeTurn => .command (encodeCommand chars .setmodeTurn)
  | .setticks n => .command (encodeCommand chars (.setticks n))
  | .setbear delta => .command (encodeCommand chars (.setbear delta))
  | .setgain sel value => .command (encodeCommand chars (.setgain sel value))
  | .rstenc => .command (encodeCommand chars .rstenc)
  | .fwd => .actuation (encodeActuation .fwd)
  | .bwd => .actuation (encodeActuation .bwd)
  | .rcw => .actuation (encodeActuation .rcw)
  | .rccw => .actuation (encodeActuation .rccw)
  | .stop => .actuation (encodeActuation .stop)
  | .speed v => .actuation (encodeActuation (.speed v))
  | .tiltl => .actuation (encodeActuation .tiltl)
  | .tiltr => .actuation (encodeActuation .tiltr)
  | .status f => .telemetry (encodeRecord (.status f))
  | .barcode payload => .telemetry (encodeRecord (.barcode payload))
  | .diag code => .telemetry (encodeRecord (.diag code))

/-! ## The numbering of spec/opcode_table.json -/

/-- The record that a table word of `n` bytes stands for. The rows STATUS and DIAG are read as one number, most
significant byte first (98_reader.md). The row BARCODE has its match over byte 0 only, so byte 0 is the number's low byte,
and what follows it (`len`, then the payload) is 0 where the number does not say it. DESIGN CHOICE, log entry 16: a number of two
bytes whose high byte is a `kind` is read the first way, any other the second. -/
def tableRecord (n w : Nat) : List Byte :=
  let msb := natToBytes n w
  if 2 ≤ n ∧ (msb.head? = some 0x01 ∨ msb.head? = some 0x02 ∨ msb.head? = some 0x03) then
    if msb.head? = some 0x02 then
      msb ++ List.replicate (2 + (msb.drop 1).head?.elim 0 BitVec.toNat - n) 0
    else msb
  else
    let lsb := msb.reverse
    let head := lsb ++ List.replicate (2 - n) 0
    if head.head? = some 0x02 then
      head ++ List.replicate (2 + (head.drop 1).head?.elim 0 BitVec.toNat - head.length) 0
    else head

/-- The word on its port that a table row of `nbits` bits and the number `w` stand for: the width names the format
(30_encoding.md R91). -/
def tableWord (nbits w : Nat) : PortWord :=
  if nbits = 80 then .event (BitVec.ofNat 80 w)
  else if nbits = 48 then .command (BitVec.ofNat 48 w)
  else if nbits = 24 then .actuation (BitVec.ofNat 24 w)
  else .telemetry (tableRecord (nbits / 8) w)

/-- The instruction the decoder reads from an instruction whose bits are `w`, numbered as spec/opcode_table.json numbers
them, with the default mode characters, which are the table's own. -/
def decodeTableWord (nbits w : Nat) : Option Instr :=
  (decode ModeChars.spec (tableWord nbits w)).toOption

end Sys2Proof
end

