-- ==== Sys2Proof/Machine/Commands.lean ====
section
/-! DEFINITION. CPUSH and the eight command words (43_commands.md R190 to R200), and the controller's poll of the Command
Channel (R191). A command word acts when the controller pops it. -/

namespace Sys2Proof.Machine

/-- CPUSH (R190): the word is queued as it is, neither decoded nor checked. -/
def execCpush (c : CommandWord) (s : State) : Result := .next (s.pushCmd c)

/-- SETMODE.IDLE (R192). -/
def cmdSetmodeIdle (s : State) : State := s.enter .idle

/-- SETMODE.FWD (R193). -/
def cmdSetmodeFwd (s : State) : State := (s.setCounts 0 0).enter .forward

/-- SETMODE.BA (R194). -/
def cmdSetmodeBa (s : State) : State := (s.setCounts 0 0).enter .barcodeApproach

/-- SETMODE.TURN (R195). -/
def cmdSetmodeTurn (s : State) : State := s.enter .turn

/-- SETTICKS (R196): a negative operand is reserved and changes nothing. -/
def cmdSetticks (n : BitVec 32) (s : State) : State :=
  if 0 ≤ s32 n then s.setTarget (n.zeroExtend 64) else s

/-- SETBEAR (R197): relative to the whole degrees of the snapshot's heading, rounded down, modulo 360. -/
def cmdSetbear (delta : BitVec 32) (s : State) : State :=
  s.setBearing (BitVec.ofInt 16 ((s.heading / one + s32 delta) % 360))

/-- SETGAIN (R198): a selector above 5 is reserved and changes nothing. -/
def cmdSetgain (sel : Byte) (value : Q16) (s : State) : State :=
  s.setGains (s.ctl.gains.set sel value)

/-- RSTENC (R199): honoured in Idle and Turn only. -/
def cmdRstenc (s : State) : State :=
  match s.ctl.mode with
  | .idle => s.setCounts 0 0
  | .turn => s.setCounts 0 0
  | .forward => s
  | .barcodeApproach => s
  | .reverseTransition => s
  | .reverse => s

/-- The rule of a command word (R191). -/
def runCommand (c : Command) (s : State) : State :=
  match c with
  | .setmodeIdle => cmdSetmodeIdle s
  | .setmodeFwd => cmdSetmodeFwd s
  | .setmodeBa => cmdSetmodeBa s
  | .setmodeTurn => cmdSetmodeTurn s
  | .setticks n => cmdSetticks n s
  | .setbear delta => cmdSetbear delta s
  | .setgain sel value => cmdSetgain sel value s
  | .rstenc => cmdRstenc s

/-- The rule of a popped word: a reserved word changes nothing (30_encoding.md R102). -/
def runWord (w : CommandWord) (s : State) : State :=
  match decodeCommand s.par.modeChars w with
  | .ok c => runCommand c s
  | .error _ => s

/-- Step 1 of a control tick: `Pop(cmd_q)` once, and the rule of the word, if there is one (R191; 20_memory.md R64). -/
def poll (s : State) : State :=
  match s.cmdQ with
  | [] => s
  | w :: rest => runWord w { s with cmdQ := rest }

/-! ## The meanings of the command words -/

/-- SETMODE.IDLE. -/
def execSetmodeIdle (s : State) : Result := .next (cmdSetmodeIdle s)

/-- SETMODE.FWD. -/
def execSetmodeFwd (s : State) : Result := .next (cmdSetmodeFwd s)

/-- SETMODE.BA. -/
def execSetmodeBa (s : State) : Result := .next (cmdSetmodeBa s)

/-- SETMODE.TURN. -/
def execSetmodeTurn (s : State) : Result := .next (cmdSetmodeTurn s)

/-- SETTICKS. -/
def execSetticks (n : BitVec 32) (s : State) : Result := .next (cmdSetticks n s)

/-- SETBEAR. -/
def execSetbear (delta : BitVec 32) (s : State) : Result := .next (cmdSetbear delta s)

/-- SETGAIN. -/
def execSetgain (sel : Byte) (value : Q16) (s : State) : Result := .next (cmdSetgain sel value s)

/-- RSTENC. -/
def execRstenc (s : State) : Result := .next (cmdRstenc s)

end Sys2Proof.Machine
end

