-- ==== Sys2Proof/Machine/Controller.lean ====
section
/-! DEFINITION. Step 3 of a control tick: the six modes, the control laws, the steering corrections and the transitions
(44_controller.md R215 to R248). -/

namespace Sys2Proof.Machine

/-! ## The laws -/

/-- The error of the distance modes: `target_ticks - L` (R216, R231). -/
abbrev State.distError (s : State) : Int := s.target - s.left

/-- The PD law of the distance modes on the error `e` (R235). `ki_f` is not used. -/
def State.pdControl (s : State) (e : Int) : Int :=
  clamp (Q16.raw s.ctl.gains.kpF * e + Q16.raw s.ctl.gains.kdF * (e - s.ctl.lastError.toInt)) (-one) one

/-- The scaled speed of a control value: floor of `abs(ctrl) * SPEED_MAX / ONE` (R236). -/
def State.scaledSpeed (s : State) (c : Int) : Nat := c.natAbs * s.par.speedMax / 65536

/-- The Turn error (R245, R246). -/
def State.turnError (s : State) : Int := wrap180 ((s.ctl.targetBearing.toNat : Int) * one - s.heading)

/-- `err_sum` after a Turn tick with the error `e` (R247). -/
def State.nextErrSum (s : State) (e : Int) : Int := satS64 (s.ctl.errSum.toInt + e)

/-- The PID law of Turn on the error `e` (R245, R248). -/
def State.pidControl (s : State) (e : Int) : Int :=
  clamp
    ((Q16.raw s.ctl.gains.kpT * e + Q16.raw s.ctl.gains.kiT * s.nextErrSum e
      + Q16.raw s.ctl.gains.kdT * (e - s.ctl.lastError.toInt)).tdiv one)
    (-one) one

/-! ## Steering -/

/-- The wheel-difference correction, in the Forward sense (R237): positive steers right. -/
def State.wdSteer (s : State) : Int :=
  -sign (s.left - s.right) * (min (s.par.wdGain * (s.left - s.right).natAbs) s.par.tiltCap : Nat)

/-- The line correction (R238). -/
def State.lineSteer (s : State) : Int :=
  (if s.snap.leftBlack then ((s.par.lineCorrMult * s.par.wdGain : Nat) : Int) else 0)
    - (if s.snap.rightBlack then ((s.par.lineCorrMult * s.par.wdGain : Nat) : Int) else 0)

/-- The tilt words of `steer` (R239). -/
def tiltWords (steer : Int) : List Actuation :=
  if 0 < steer then List.replicate steer.natAbs .tiltr else List.replicate steer.natAbs .tiltl

/-! ## The distance modes -/

/-- The obstacle override (R230). -/
def State.obstacleOverride (s : State) : State := if s.obstacle then s.setTarget 0 else s

/-- A tick of a distance mode: the law, then the zone, or driving in the direction `dir` with the correction `steer`, or
stopping (R231, R232, R234, R243). `finish` is what the end of the dwell does with the final error. -/
def State.distanceTick (s : State) (dir : Actuation) (steer : Int) (finish : Int → State → State) : State :=
  let e := s.distError
  let c := s.pdControl e
  let s1 := s.storeLaw c e
  if s.inZone e then
    let n := s.ctl.steadyCounter.toNat + 1
    let s2 := ((s1.setSpeed 0).setSteady n).emit .stop
    if s.windowFull n then finish e s2 else s2
  else if 0 < c then
    let v := s.scaledSpeed c
    ((s1.setSteady 0).setSpeed v).emitAll (dir :: .speed (BitVec.ofNat 16 v) :: tiltWords steer)
  else ((s1.setSteady 0).setSpeed 0).emit .stop

/-- The end of the dwell in Forward and BarcodeApproach (R233). -/
def finishForward (e : Int) (s : State) : State :=
  if e < -(s.par.tolTicks : Int) then s.enter .reverseTransition else s.enter .idle

/-- Forward tick (R231, with the line correction). -/
def forwardTick (s : State) : State :=
  let s := s.obstacleOverride
  s.distanceTick .fwd (s.wdSteer + s.lineSteer) finishForward

/-- BarcodeApproach tick (R231, without the line correction). -/
def barcodeApproachTick (s : State) : State :=
  let s := s.obstacleOverride
  s.distanceTick .fwd s.wdSteer finishForward

/-- Reverse tick (R243): no obstacle check, the correction of the opposite sign, and a dwell that always ends in Idle. -/
def reverseTick (s : State) : State :=
  s.distanceTick .bwd (-s.wdSteer) (fun _ s => s.enter .idle)

/-! ## Idle, ReverseTransition and Turn -/

/-- Idle tick (R220). -/
def idleTick (s : State) : State := s.emit .stop

/-- The capture at the end of the ReverseTransition dwell (R241): the offset pair, the new target, then Reverse. -/
def capture (s : State) : State :=
  let overshoot := max (s.left - s.target) 0
  let delta := s.left - s.right
  let target := min (overshoot + max delta 0) (2 ^ 64 - 1)
  ((s.setCounts (BitVec.ofInt 64 (max delta 0)) (BitVec.ofInt 64 (max (-delta) 0))).setTarget
    (BitVec.ofInt 64 target)).enter .reverse

/-- ReverseTransition tick (R240). -/
def reverseTransitionTick (s : State) : State :=
  let n := s.ctl.steadyCounter.toNat + 1
  let s1 := (s.emit .stop).setSteady n
  if s.par.rtDwellTicks ≤ n then capture s1 else s1

/-- Turn tick (R245): the law runs in every tick, the tick that fills the window emits STOP in place of a rotation. -/
def turnTick (s : State) : State :=
  let e := s.turnError
  let c := s.pidControl e
  let v := s.scaledSpeed c
  let n := if s.settled e then s.ctl.steadyCounter.toNat + 1 else 0
  let s1 := ((((s.setErrSum (s.nextErrSum e)).storeLaw c e).setSpeed v).setSteady n)
  if s.windowFull n then (s1.emit .stop).enter .idle
  else s1.emitAll [if 0 < c then .rcw else .rccw, .speed (BitVec.ofNat 16 v)]

/-- Step 3 of a control tick: the rule of the current mode (R211). -/
def behave (s : State) : State :=
  match s.ctl.mode with
  | .idle => idleTick s
  | .forward => forwardTick s
  | .barcodeApproach => barcodeApproachTick s
  | .reverseTransition => reverseTransitionTick s
  | .reverse => reverseTick s
  | .turn => turnTick s

end Sys2Proof.Machine
end

