-- ==== Sys2Proof/Machine/Telemetry.lean ====
section
/-! DEFINITION. Step 4 of a control tick, CTICK as a whole, the actuation words, the telemetry records and TPOP
(44_controller.md R211; 45_actuation_telemetry.md R270 to R297). -/

namespace Sys2Proof.Machine

/-! ## Step 4 -/

/-- The content of a STATUS record: the registers at the moment of the push (R291). -/
def statusFields (s : State) : StatusFields where
  modeTag := s.par.modeChars.of s.ctl.mode
  left    := s.enc.leftTicks
  right   := s.enc.rightTicks
  target  := s.ctl.targetTicks
  bearing := s.ctl.targetBearing
  error   := s.ctl.lastError.signExtend 72
  control := s.ctl.ctrl
  kp      := s.ctl.activeGains.1
  ki      := s.ctl.activeGains.2.1
  kd      := s.ctl.activeGains.2.2
  speed   := s.ctl.speed

/-- The status period of the mode (R289). -/
def State.telemPeriod (s : State) : Nat :=
  match s.ctl.mode with
  | .idle => s.par.telemPeriodIdle
  | .forward => s.par.telemPeriodMove
  | .barcodeApproach => s.par.telemPeriodMove
  | .reverseTransition => s.par.telemPeriodMove
  | .reverse => s.par.telemPeriodMove
  | .turn => s.par.telemPeriodMove

/-- This tick's count reaches the period, so a status record is due (R289). -/
abbrev State.telemDue (s : State) : Prop := s.telemPeriod ≤ s.ctl.telemCounter.toNat + 1

/-- How many tries of the telemetry lock fail in a tick that tries (R290). -/
abbrev State.failedTries (s : State) (lockFail : Byte) : Nat := min lockFail.toNat s.par.telemRetryMax

/-- The lock is taken, at the try after the failed ones (R290). -/
abbrev State.lockTaken (s : State) (lockFail : Byte) : Prop := lockFail.toNat < s.par.telemRetryMax

/-- The telemetry lock (R290): one STOP for each failed try, then the record, or nothing when every try failed. -/
def sendStatus (lockFail : Byte) (s : State) : State :=
  let s1 := s.emitAll (List.replicate (s.failedTries lockFail) .stop)
  if s.lockTaken lockFail then s1.pushTelem (.status (statusFields s1)) else s1

/-- Step 4 of a control tick (R289): the counter is cleared whether or not the record gets out. -/
def telemetryStep (lockFail : Byte) (s : State) : State :=
  if s.telemDue then sendStatus lockFail (s.setTelemCounter 0)
  else s.setTelemCounter (s.ctl.telemCounter.toNat + 1)

/-- CTICK (44_controller.md R211): poll, sample and behave, telemetry, in this order. Sampling (step 2) is reading the state that
the poll leaves: nothing writes the snapshot or the counts between the sample and its uses (R122). -/
def execCtick (lockFail : Byte) (s : State) : Result :=
  .next (telemetryStep lockFail (behave (poll s)))

/-! ## The consumer side -/

/-- TPOP (R296): the oldest record, if there is one, goes to the host. -/
def execTpop (s : State) : Result :=
  match s.telemQ with
  | [] => .next s
  | r :: rest => .next { s with telemQ := rest, telemOut := s.telemOut ++ [r] }

/-! ## The actuation words -/

/-- FWD (R271). -/
def execFwd (s : State) : Result := .next (s.emit .fwd)

/-- BWD (R272). -/
def execBwd (s : State) : Result := .next (s.emit .bwd)

/-- RCW (R273). -/
def execRcw (s : State) : Result := .next (s.emit .rcw)

/-- RCCW (R274). -/
def execRccw (s : State) : Result := .next (s.emit .rccw)

/-- STOP (R275). -/
def execStop (s : State) : Result := .next (s.emit .stop)

/-- SPEED (R276): the word carries a value; the register `speed` is written by the rule that emits it, not by the word. -/
def execSpeed (v : BitVec 16) (s : State) : Result := .next (s.emit (.speed v))

/-- TILTL (R277). -/
def execTiltl (s : State) : Result := .next (s.emit .tiltl)

/-- TILTR (R278). -/
def execTiltr (s : State) : Result := .next (s.emit .tiltr)

/-! ## The telemetry records -/

/-- STATUS (R291): the push of a record with these fields; a control tick pushes the one with `statusFields`. -/
def execStatus (f : StatusFields) (s : State) : Result := .next (s.pushTelem (.status f))

/-- BARCODE (R292): the push of a record with this payload. -/
def execBarcode (payload : List Byte) (s : State) : Result := .next (s.pushTelem (.barcode payload))

/-- DIAG (R293): the push of a record with this code. -/
def execDiag (code : Byte) (s : State) : Result := .next (s.pushTelem (.diag code))

end Sys2Proof.Machine
end

