-- ==== Sys2Proof/Machine/Dispatch.lean ====
section
/-! DEFINITION. The meaning of every instruction, one arm for each constructor of `Instr`. -/

namespace Sys2Proof.Machine

def exec (i : Instr) (s : State) : Host.Outcome State Fault Refusal :=
  match i with
  -- format E
  | .reset => Sys2Proof.Machine.execReset s
  | .ledge t => Sys2Proof.Machine.execLedge t s
  | .redge t => Sys2Proof.Machine.execRedge t s
  | .pedgeR t => Sys2Proof.Machine.execPedgeR t s
  | .pedgeF t => Sys2Proof.Machine.execPedgeF t s
  | .snap a => Sys2Proof.Machine.execSnap a s
  | .cpush c => Sys2Proof.Machine.execCpush c s
  | .ctick lockFail => Sys2Proof.Machine.execCtick lockFail s
  | .tpop => Sys2Proof.Machine.execTpop s
  -- format C
  | .setmodeIdle => Sys2Proof.Machine.execSetmodeIdle s
  | .setmodeFwd => Sys2Proof.Machine.execSetmodeFwd s
  | .setmodeBa => Sys2Proof.Machine.execSetmodeBa s
  | .setmodeTurn => Sys2Proof.Machine.execSetmodeTurn s
  | .setticks n => Sys2Proof.Machine.execSetticks n s
  | .setbear delta => Sys2Proof.Machine.execSetbear delta s
  | .setgain sel value => Sys2Proof.Machine.execSetgain sel value s
  | .rstenc => Sys2Proof.Machine.execRstenc s
  -- format A
  | .fwd => Sys2Proof.Machine.execFwd s
  | .bwd => Sys2Proof.Machine.execBwd s
  | .rcw => Sys2Proof.Machine.execRcw s
  | .rccw => Sys2Proof.Machine.execRccw s
  | .stop => Sys2Proof.Machine.execStop s
  | .speed v => Sys2Proof.Machine.execSpeed v s
  | .tiltl => Sys2Proof.Machine.execTiltl s
  | .tiltr => Sys2Proof.Machine.execTiltr s
  -- format T
  | .status f => Sys2Proof.Machine.execStatus f s
  | .barcode payload => Sys2Proof.Machine.execBarcode payload s
  | .diag code => Sys2Proof.Machine.execDiag code s

end Sys2Proof.Machine
end

