-- ==== Sys2Proof/Machine/Reserved.lean ====
section
/-! DEFINITION. What a step does with a word of `inbox` that is no instruction (30_encoding.md R101, R102). -/

namespace Sys2Proof.Machine

/-- A reserved event and a reserved command change no state and produce no output (R101, R102). A word that is none of the
block's actuation words or telemetry records is no input and no output of the block: it is refused by name (log entry 8). -/
def execReserved (w : PortWord) (s : State) : Result :=
  match w with
  | .event _ => .next s
  | .command _ => .next s
  | .actuation a => .refused (.noSuchActuation a)
  | .telemetry bytes => .refused (.noSuchRecord bytes)

end Sys2Proof.Machine
end

