-- ==== Sys2Proof/Machine/Step.lean ====
section
/-! DEFINITION. One step: the oldest word of `inbox` is taken, decoded and run to completion (00_scope.md R12). -/

namespace Sys2Proof.Machine

/-- The machine runs the word `w`: the instruction it decodes to, or what its port does with a word that is none. -/
def stepWord (w : PortWord) (s : State) : Host.Outcome State Fault Refusal :=
  match decode s.par.modeChars w with
  | .ok i => exec i s
  | .error _ => execReserved w s

/-- One step. With nothing waiting the block is idle: "between events the block is idle and waits for the next event"
(60_exceptions.md R314 b). -/
def step (s : State) : Host.Outcome State Fault Refusal :=
  match s.inbox with
  | [] => .next s
  | w :: rest => stepWord w { s with inbox := rest }

/-- The state in which the next step runs the word that a table row of `nbits` bits and the number `w` stand for: the word
is put in front of whatever else is waiting (log entries 2 and 16). -/
def State.withFetchWord (s : State) (nbits w : Nat) : State :=
  { s with inbox := tableWord nbits w :: s.inbox }

end Sys2Proof.Machine
end

