-- ==== Sys2Proof/Machine/Trace.lean ====
section
/-! DEFINITION. The lines a trace is written in (30_encoding.md R105), each with the event word it stands for, and the four
pseudo-instructions (R106). A line is data here, not text: its mnemonic is its constructor. -/

namespace Sys2Proof.Machine

/-- A Q16.16 operand of a line: `#r`, or a decimal number `num / 10^digits` (R105). -/
inductive QOperand where
  | raw (r : Int)
  | decimal (num : Int) (digits : Nat)
deriving DecidableEq, Repr

/-- The raw integer of an operand: the nearest to `x * 65536`, ties away from zero (R105). -/
def QOperand.value : QOperand → Int
  | .raw r => r
  | .decimal num digits =>
    let nearest : Int := ((2 * (num.natAbs * 65536) + 10 ^ digits) / (2 * 10 ^ digits) : Nat)
    if num < 0 then -nearest else nearest

/-- The field of a QOperand. DESIGN CHOICE, log entry 22: R105 does not say what a value outside `s32` stands for; it is taken modulo 2^32. -/
def QOperand.field (q : QOperand) : Q16 := BitVec.ofInt 32 q.value

/-- One line of a trace (R105). A SNAP operand that is `none` is written `-`. -/
inductive TraceLine where
  | reset
  | ledge (t : Nat)
  | redge (t : Nat)
  | pedgeRising (t : Nat)
  | pedgeFalling (t : Nat)
  | snap (h d : Option QOperand) (l r : Option Bool)
  | setmode (c : Byte)
  | setticks (n : Int)
  | setbear (n : Int)
  | setgain (sel : Nat) (v : QOperand)
  | rstenc
  | ctick (fail : Nat)
  | tpop
deriving DecidableEq, Repr

/-- CPUSH carrying a command word. -/
def cpushWord (c : CommandWord) : EventWord := eventWord 0x05 0 (0#16 ++ c)

/-- The event word of a line (R105). DESIGN CHOICE, log entry 22: R105 does not say what an operand too large for its field stands for (T, N, S,
`fail=N`, H, D or V); it is taken modulo the width of the field. -/
def TraceLine.word : TraceLine → EventWord
  | .reset => eventWord 0x00 0 0
  | .ledge t => eventWord 0x01 0 (BitVec.ofNat 64 t)
  | .redge t => eventWord 0x02 0 (BitVec.ofNat 64 t)
  | .pedgeRising t => eventWord 0x03 1 (BitVec.ofNat 64 t)
  | .pedgeFalling t => eventWord 0x03 0 (BitVec.ofNat 64 t)
  | .snap h d l r =>
    let a : SnapArgs :=
      { headingValid := h.isSome, distanceValid := d.isSome, leftValid := l.isSome, rightValid := r.isSome
        leftBlack := l.getD false, rightBlack := r.getD false
        heading := (h.map QOperand.field).getD 0, distance := (d.map QOperand.field).getD 0 }
    eventWord 0x04 a.sub (a.heading ++ a.distance)
  | .setmode c => cpushWord (commandWord 0x01 c 0)
  | .setticks n => cpushWord (commandWord 0x02 0 (BitVec.ofInt 32 n))
  | .setbear n => cpushWord (commandWord 0x03 0 (BitVec.ofInt 32 n))
  | .setgain sel v => cpushWord (commandWord 0x04 (BitVec.ofNat 8 sel) v.field)
  | .rstenc => cpushWord (commandWord 0x05 0 0)
  | .ctick fail => eventWord 0x06 (BitVec.ofNat 8 fail) 0
  | .tpop => eventWord 0x07 0 0

/-- `move D` (R106): the target word first, then the mode word. -/
def pseudoMove (chars : ModeChars) (d : Int) : List TraceLine := [.setticks d, .setmode (chars.of .forward)]

/-- `approach D` (R106). -/
def pseudoApproach (chars : ModeChars) (d : Int) : List TraceLine := [.setticks d, .setmode (chars.of .barcodeApproach)]

/-- `rotate B` (R106). -/
def pseudoRotate (chars : ModeChars) (b : Int) : List TraceLine := [.setbear b, .setmode (chars.of .turn)]

/-- `halt` (R106). -/
def pseudoHalt (chars : ModeChars) : List TraceLine := [.setmode (chars.of .idle)]

end Sys2Proof.Machine
end

