-- ==== Sys2Proof/Machine/Errors.lean ====
section
/-! DEFINITION. The error classes an instruction reports (60_exceptions.md R300 to R307). `report E<n>` "names a class for the
reader and changes no state by itself" (00_scope.md R11), and the codes "appear in no register and no record" (R300), so the
classes are a function of the instruction and of the state it finds, beside `exec`, and no part of the state (log entry 12). -/

namespace Sys2Proof.Machine

/-- The five classes (60_exceptions.md R300). -/
inductive ErrorClass where
  /-- Transient sensor-read failure (R301). -/
  | e1
  /-- Decode failure (R302). -/
  | e2
  /-- Channel full on send (R303). -/
  | e3
  /-- Obstacle-triggered abort (R304). -/
  | e4
  /-- Mutex contention on the telemetry path (R305). -/
  | e5
deriving DecidableEq, Repr

/-- What a `Push` on a queue of capacity `cap` reports: E3 when it finds the queue full (R303). -/
def pushReport {α : Type} (cap : Nat) (q : List α) : List ErrorClass :=
  if q.length < cap then [] else [.e3]

/-- What the push of a record reports: a DIAG is itself the report of E2 (45_actuation_telemetry.md R293). -/
def recordReport (s : State) : Record → List ErrorClass
  | .diag _ => .e2 :: pushReport s.par.telemDepth s.telemQ
  | .status _ => pushReport s.par.telemDepth s.telemQ
  | .barcode _ => pushReport s.par.telemDepth s.telemQ

/-- What step 3 reports in the state that the poll leaves: E4 in a Forward or BarcodeApproach tick with an obstacle (R304). -/
def behaveReport (s : State) : List ErrorClass :=
  match s.ctl.mode with
  | .forward => if s.obstacle then [.e4] else []
  | .barcodeApproach => if s.obstacle then [.e4] else []
  | .idle => []
  | .reverseTransition => []
  | .reverse => []
  | .turn => []

/-- What step 4 reports in the state that step 3 leaves: E5 for each failed try, then what the push reports (R305, R303). -/
def telemetryReport (lockFail : Byte) (s : State) : List ErrorClass :=
  if s.telemDue then
    List.replicate (s.failedTries lockFail) .e5
      ++ (if s.lockTaken lockFail then pushReport s.par.telemDepth s.telemQ else [])
  else []

/-- What a falling edge reports: only one that completes a symbol reports anything (42_barcode.md R155, R167, R168). -/
def pedgeFReport (t : Time) (s : State) : List ErrorClass :=
  match s.bc.state with
  | .idle => []
  | .accumulating =>
    if s.bc.edgeCount.val = 8 then
      match (s.bc.recordBar s.par.seedPolicy t).symbolRecord with
      | some r => recordReport s r
      | none => []
    else []

/-- The classes an instruction reports in the state it finds, in the order of its rule's pseudocode (R307). -/
def errorClasses (i : Instr) (s : State) : List ErrorClass :=
  match i with
  | .snap a => if a.headingValid && a.distanceValid && a.leftValid && a.rightValid then [] else [.e1]
  | .cpush _ => pushReport s.par.cmdDepth s.cmdQ
  | .pedgeF t => pedgeFReport t s
  | .ctick lockFail => behaveReport (poll s) ++ telemetryReport lockFail (behave (poll s))
  | .status f => recordReport s (.status f)
  | .barcode payload => recordReport s (.barcode payload)
  | .diag code => recordReport s (.diag code)
  | .reset => []
  | .ledge _ => []
  | .redge _ => []
  | .pedgeR _ => []
  | .tpop => []
  | .setmodeIdle => []
  | .setmodeFwd => []
  | .setmodeBa => []
  | .setmodeTurn => []
  | .setticks _ => []
  | .setbear _ => []
  | .setgain _ _ => []
  | .rstenc => []
  | .fwd => []
  | .bwd => []
  | .rcw => []
  | .rccw => []
  | .stop => []
  | .speed _ => []
  | .tiltl => []
  | .tiltr => []

end Sys2Proof.Machine
end

