-- ==== Sys2Proof/Safety.lean ====
section
/-! DEFINITION. The terms the claims use: the invariants of the register groups and of the queues, the runs of several
events, and which instruction may write the counts. -/

namespace Sys2Proof.Machine

/-! ## Invariants -/

/-- `inbox` holds nothing but event words: a trace of the spec (00_scope.md R12, R14). -/
def State.eventsOnly (s : State) : Bool := s.inbox.all (fun w => w.format == .E)

/-- The queues hold no more than their capacities (20_memory.md R61, R62). -/
abbrev State.QueueInv (s : State) : Prop :=
  s.cmdQ.length ≤ s.par.cmdDepth ∧ s.telemQ.length ≤ s.par.telemDepth

/-- A wheel none of whose edges has been counted since reset has its reset values (10_state.md R21, R22). -/
abbrev State.EncoderInv (s : State) : Prop :=
  (s.enc.lSeen = false → s.enc.lLastT = 0 ∧ s.enc.leftTicks = 0) ∧
  (s.enc.rSeen = false → s.enc.rLastT = 0 ∧ s.enc.rightTicks = 0)

/-- What `steady_counter` stays below in each mode (10_state.md R28): the bound at which its rule enters another mode. -/
def State.dwellBound (s : State) : Nat :=
  match s.ctl.mode with
  | .idle => 1
  | .forward => s.par.steadyWindow
  | .barcodeApproach => s.par.steadyWindow
  | .reverseTransition => s.par.rtDwellTicks
  | .reverse => s.par.steadyWindow
  | .turn => s.par.steadyWindow

/-- The controller registers are in their ranges: `target_bearing` in 0..359 (10_state.md R25), `last_error` within the difference
of two counts (R26), `err_sum` 0 outside Turn (R27), `steady_counter` below its bound (R28), `ctrl` within -ONE..ONE (R30), `speed` at most
`SPEED_MAX` (44_controller.md R236), `telem_counter` below a period (45_actuation_telemetry.md R289); and a mode that runs no law has the zeros
that `enter` wrote (44_controller.md R220, R240). -/
abbrev State.ControllerInv (s : State) : Prop :=
  s.ctl.targetBearing.toNat < 360 ∧
  (-(2 ^ 64 - 1) ≤ s.ctl.lastError.toInt ∧ s.ctl.lastError.toInt ≤ 2 ^ 64 - 1) ∧
  (s.ctl.mode ≠ .turn → s.ctl.errSum = 0) ∧
  s.ctl.steadyCounter.toNat < s.dwellBound ∧
  (-one ≤ s.ctl.ctrl.toInt ∧ s.ctl.ctrl.toInt ≤ one) ∧
  s.ctl.speed.toNat ≤ s.par.speedMax ∧
  s.ctl.telemCounter.toNat < max s.par.telemPeriodMove s.par.telemPeriodIdle ∧
  (s.ctl.mode = .idle ∨ s.ctl.mode = .reverseTransition → s.ctl.lastError = 0 ∧ s.ctl.ctrl = 0 ∧ s.ctl.speed = 0)

/-- A stored character of a scan after the start sentinel: in `ALPHABET` and no sentinel (42_barcode.md R162, R168). -/
def scanChar (c : Byte) : Bool := alphabet.contains c && c != sentinel

/-- The barcode registers agree with each other: no interval is in the window in Idle (10_state.md R33), a width not yet measured
is 0 (R35), the threshold is 0 until it is seeded (R36) and is seeded before the first interval is stored (42_barcode.md R157), the buffer is
bounded and starts with the start sentinel (R38), and `reversed` is set only inside a scan (R37). -/
abbrev State.BarcodeInv (s : State) : Prop :=
  (s.bc.state = .idle → s.bc.edgeCount.val = 0) ∧
  (∀ i : Fin 5, s.bc.edgeCount.val < 2 * i.val + 1 → s.bc.barW[i] = 0) ∧
  (∀ j : Fin 4, s.bc.edgeCount.val < 2 * j.val + 2 → s.bc.spaceW[j] = 0) ∧
  (s.bc.threshValid = false → s.bc.threshold = 0) ∧
  (0 < s.bc.edgeCount.val → s.bc.threshValid = true) ∧
  s.bc.assembled.length ≤ s.par.assembledMax ∧
  (s.bc.assembled ≠ [] → s.bc.assembled.head? = some sentinel) ∧
  (s.bc.assembled.drop 1).all scanChar = true ∧
  (s.bc.reversed = true → s.bc.assembled ≠ [])

/-- Nothing but step 3 acts in the next control tick: no command is waiting and no status record comes due, in Idle's
period or in the others' (43_commands.md R191, 45_actuation_telemetry.md R289). -/
abbrev State.Quiet (s : State) : Prop :=
  s.cmdQ = [] ∧
  s.ctl.telemCounter.toNat + 1 < s.par.telemPeriodMove ∧
  s.ctl.telemCounter.toNat + 1 < s.par.telemPeriodIdle

/-! ## Runs -/

/-- Several instructions one after the other. -/
def runAll : List Instr → State → Result
  | [], s => .next s
  | i :: is, s =>
    match exec i s with
    | .next t => runAll is t
    | .fault f => .fault f
    | .refused r => .refused r

/-- The command a control tick pops and runs, if it pops one that is not reserved (43_commands.md R191). -/
def polledCommand (s : State) : Option Command :=
  match s.cmdQ with
  | [] => none
  | w :: _ => (decodeCommand s.par.modeChars w).toOption

/-- The commands that write the counts, in the mode that finds them (41_encoder.md R136). -/
def Command.writesCounts (c : Command) (m : Mode) : Bool :=
  match c with
  | .setmodeFwd => true
  | .setmodeBa => true
  | .rstenc => m == .idle || m == .turn
  | .setmodeIdle => false
  | .setmodeTurn => false
  | .setticks _ => false
  | .setbear _ => false
  | .setgain _ _ => false

/-- A control tick's step 3 runs the capture (44_controller.md R240, R241). -/
def capturesIn (s : State) : Bool :=
  s.ctl.mode == .reverseTransition && s.par.rtDwellTicks ≤ s.ctl.steadyCounter.toNat + 1

/-- The instruction runs a writer of 41_encoder.md R136, or is RESET. -/
def writesCounts (i : Instr) (s : State) : Bool :=
  match i with
  | .reset => true
  | .ctick _ => (polledCommand s).any (fun c => Command.writesCounts c s.ctl.mode) || capturesIn (poll s)
  | .setmodeFwd => true
  | .setmodeBa => true
  | .rstenc => Command.writesCounts .rstenc s.ctl.mode
  | .ledge _ => false
  | .redge _ => false
  | .pedgeR _ => false
  | .pedgeF _ => false
  | .snap _ => false
  | .cpush _ => false
  | .tpop => false
  | .setmodeIdle => false
  | .setmodeTurn => false
  | .setticks _ => false
  | .setbear _ => false
  | .setgain _ _ => false
  | .fwd => false
  | .bwd => false
  | .rcw => false
  | .rccw => false
  | .stop => false
  | .speed _ => false
  | .tiltl => false
  | .tiltr => false
  | .status _ => false
  | .barcode _ => false
  | .diag _ => false

/-- No instruction of the run writes the counts other than by increment. -/
def onlyIncrements : List Instr → State → Bool
  | [], _ => true
  | i :: is, s =>
    !writesCounts i s &&
      match exec i s with
      | .next t => onlyIncrements is t
      | .fault _ => true
      | .refused _ => true

/-! ## Barcodes on the photodetector (42_barcode.md R171) -/

/-- The nine widths of a symbol's elements, in the order they pass the sensor: bar 0, space 0, bar 1, ..., bar 4. -/
def interleave : List Bool → List Bool → List Bool
  | b :: bs, spaces =>
    match spaces with
    | [] => b :: bs
    | sp :: rest => b :: sp :: interleave bs rest
  | [], spaces => spaces

/-- The width of an element. -/
def elementWidth (narrow wideW : Time) (isWide : Bool) : Time := if isWide then wideW else narrow

/-- The nine edges that end the elements of a symbol whose last edge before was at `t`, falling and rising in turn. -/
def elementEdges (narrow wideW : Time) : (falling : Bool) → (t : Time) → List Bool → List Instr
  | _, _, [] => []
  | falling, t, e :: es =>
    let t' := t + elementWidth narrow wideW e
    (if falling then .pedgeF t' else .pedgeR t') :: elementEdges narrow wideW (!falling) t' es

/-- The ten edges of one symbol whose first bar begins at `t`. -/
def symbolEdges (narrow wideW t : Time) (bars spaces : List Bool) : List Instr :=
  .pedgeR t :: elementEdges narrow wideW true t (interleave bars spaces)

end Sys2Proof.Machine
end

