-- ==== Sys2Proof/Certificates/Slice0/Obligations.lean ====
section
/-! DEFINITION. The statements for the provers. Each docstring names the rule of spec/ it formalises. An instruction is stated
through `exec`, whose next state is written as the state before with the registers its rule writes replaced, so that each
statement is its own frame: whatever it does not name is unchanged. -/

open Sys2Proof Sys2Proof.Machine

/-! ## The machine as a whole -/

/-- R76, R300 (an actuation word and a record given alone run too: the model's choice, log entry 3): "every event is enabled in every state"; so is every command word, actuation word and record. -/
def Obligations.EveryInstructionCompletes : Prop :=
  ∀ (i : Instr) (s : State), ∃ t, exec i s = .next t

/-- R12 (the waiting words are the model's field `inbox`, log entry 2): a step takes the oldest word that waits and runs the instruction it decodes to on the state without it. -/
def Obligations.StepRunsDecodedInstruction : Prop :=
  ∀ (s : State) (w : PortWord) (rest : List PortWord) (i : Instr),
    s.inbox = w :: rest → decode s.par.modeChars w = .ok i → step s = exec i { s with inbox := rest }

/-- R102, and of R101 its first sentence: a reserved event and a reserved command word change no state and produce no output. -/
def Obligations.ReservedWordsChangeNothing : Prop :=
  (∀ (s : State) (w : EventWord) (rest : List PortWord), s.inbox = .event w :: rest → 0x08 ≤ (w.extractLsb' 72 8).toNat →
    step s = .next { s with inbox := rest }) ∧
  (∀ (s : State) (w : CommandWord) (rest : List CommandWord), s.cmdQ = w :: rest →
    ((w.extractLsb' 40 8 = 0x00#8 ∨ 0x06 ≤ (w.extractLsb' 40 8).toNat) ∨
     (w.extractLsb' 40 8 = 0x01#8 ∧
       w.extractLsb' 32 8 ∉ [s.par.modeChars.idle, s.par.modeChars.forward, s.par.modeChars.barcodeApproach,
         s.par.modeChars.turn]) ∨
     (w.extractLsb' 40 8 = 0x04#8 ∧ 5 < (w.extractLsb' 32 8).toNat) ∨
     (w.extractLsb' 40 8 = 0x02#8 ∧ (w.extractLsb' 0 32).toInt < 0)) →
    poll s = { s with cmdQ := rest })

/-- R314 b and R12 (the waiting trace is the model's field `inbox`, log entries 2 and 15): with no event waiting the block waits; with nothing but events waiting every step handles one whole. -/
def Obligations.EventTracesNeverStop : Prop :=
  ∀ s : State, s.eventsOnly = true →
    ∃ t, step s = .next t ∧ t.inbox = s.inbox.tail ∧ t.eventsOnly = true ∧ (s.inbox = [] → t = s)

/-- R20 (ownership): an event that is not RESET leaves every group alone that its agent does not own. -/
def Obligations.EventsKeepToTheirGroups : Prop :=
  ∀ (i : Instr) (s t : State), exec i s = .next t →
    (match i with
     | .ledge _ => t = { s with enc := t.enc } ∧ t.enc.rightTicks = s.enc.rightTicks ∧ t.enc.rSeen = s.enc.rSeen ∧
         t.enc.rLastT = s.enc.rLastT
     | .redge _ => t = { s with enc := t.enc } ∧ t.enc.leftTicks = s.enc.leftTicks ∧ t.enc.lSeen = s.enc.lSeen ∧
         t.enc.lLastT = s.enc.lLastT
     | .pedgeR _ => t = { s with bc := t.bc }
     | .pedgeF _ => t = { s with bc := t.bc, telemQ := t.telemQ }
     | .snap _ => t = { s with snap := t.snap }
     | .cpush _ => t = { s with cmdQ := t.cmdQ }
     | .ctick _ => t = { s with enc := t.enc, ctl := t.ctl, cmdQ := t.cmdQ, telemQ := t.telemQ, actOut := t.actOut } ∧
         t.enc.lSeen = s.enc.lSeen ∧ t.enc.lLastT = s.enc.lLastT ∧ t.enc.rSeen = s.enc.rSeen ∧ t.enc.rLastT = s.enc.rLastT
     | .tpop => t = { s with telemQ := t.telemQ, telemOut := t.telemOut }
     | _ => True)

/-! ## Reset -/

/-- R330, R45: RESET gives every register and both queues the values of the table, emits nothing and pushes nothing; the
gains and the snapshot, which the table leaves unspecified, are not named. -/
def Obligations.ResetEventRestoresTableValues : Prop :=
  (∀ (sub : Byte) (arg : BitVec 64), decodeEvent (eventWord 0x00 sub arg) = .ok .reset) ∧
  ∀ s : State, ∃ t, exec .reset s = .next t ∧
    t.enc = ⟨0, 0, false, false, 0, 0⟩ ∧
    t.ctl = ⟨.idle, 0, 0, 0, 0, 0, t.ctl.gains, 0, 0, 0⟩ ∧
    t.bc = ⟨.idle, 0, 0, #v[0, 0, 0, 0, 0], #v[0, 0, 0, 0], false, 0, false, []⟩ ∧
    t.cmdQ = [] ∧ t.telemQ = [] ∧ t.actOut = s.actOut ∧ t.telemOut = s.telemOut ∧ t.par = s.par ∧ t.inbox = s.inbox

/-- R45: the state right after reset. The gains and the snapshot are the model's choice (log entries 5 and 6) and are not named. -/
def Obligations.ResetStateHasTableValues : Prop :=
  State.reset.enc = ⟨0, 0, false, false, 0, 0⟩ ∧
  State.reset.ctl = ⟨.idle, 0, 0, 0, 0, 0, State.reset.ctl.gains, 0, 0, 0⟩ ∧
  State.reset.bc = ⟨.idle, 0, 0, #v[0, 0, 0, 0, 0], #v[0, 0, 0, 0], false, 0, false, []⟩ ∧
  State.reset.cmdQ = [] ∧ State.reset.telemQ = [] ∧ State.reset.actOut = []

/-- The invariants below hold of the state right after reset, and its parameters are in range. That `State.reset` holds the default
parameters is the model's choice (log entry 1, which marks it unsafe for a statement about `State.reset` alone), as are its gains and its
snapshot (log entries 5 and 6). -/
def Obligations.ResetStateMeetsTheInvariants : Prop :=
  State.reset.par.Valid ∧ State.reset.QueueInv ∧ State.reset.EncoderInv ∧ State.reset.ControllerInv ∧ State.reset.BarcodeInv

/-! ## Invariants of every step -/

/-- R61, R62 and 00_scope.md R6: no step overfills a queue, and none changes a parameter. -/
def Obligations.StepsKeepQueuesBounded : Prop :=
  ∀ s t : State, s.QueueInv → step s = .next t → t.QueueInv ∧ t.par = s.par

/-- R21, R22, R136: a wheel that has counted no edge since reset keeps its reset values. -/
def Obligations.StepsKeepEncoderInvariant : Prop :=
  ∀ s t : State, s.EncoderInv → step s = .next t → t.EncoderInv

/-- R25, R26, R27, R28, R30 and R236: the controller registers stay in their ranges in every step. -/
def Obligations.StepsKeepControllerInvariant : Prop :=
  ∀ s t : State, s.par.Valid → s.ControllerInv → step s = .next t → t.ControllerInv

/-- R33, R35, R36, R37, R38: the barcode registers agree with each other after every step. -/
def Obligations.StepsKeepBarcodeInvariant : Prop :=
  ∀ s t : State, s.par.Valid → s.BarcodeInv → step s = .next t → t.BarcodeInv

/-! ## Encodings -/

/-- R92, R94, R96, R97: decoding the word of a well-formed instruction gives the instruction back, whatever the parameters. -/
def Obligations.DecodeInvertsEncode : Prop :=
  ∀ (p : Params) (i : Instr), p.Valid → i.wf = true → decode p.modeChars (encode p.modeChars i) = .ok i

/-- R96, R97 (that another spelling is refused is the model's choice, log entry 8): an actuation word and a telemetry record have one
spelling each, so encoding what was decoded gives it back. -/
def Obligations.OutputFormatsHaveOneSpelling : Prop :=
  (∀ (w : ActuationWord) (a : Actuation), decodeActuation w = .ok a → encodeActuation a = w) ∧
  (∀ (bs : List Byte) (r : Record), decodeRecord bs = .ok r → encodeRecord r = bs)

/-- R92, R94: the bits the tables call ignored may hold any value. -/
def Obligations.IgnoredBitsHaveNoEffect : Prop :=
  (∀ (sub sub' : Byte) (arg arg' : BitVec 64), decodeEvent (eventWord 0x00 sub arg) = decodeEvent (eventWord 0x00 sub' arg')) ∧
  (∀ (sub sub' : Byte) (t : Time), decodeEvent (eventWord 0x01 sub t) = decodeEvent (eventWord 0x01 sub' t) ∧
    decodeEvent (eventWord 0x02 sub t) = decodeEvent (eventWord 0x02 sub' t)) ∧
  (∀ (hi hi' : BitVec 7) (b : BitVec 1) (t : Time),
    decodeEvent (eventWord 0x03 (hi ++ b) t) = decodeEvent (eventWord 0x03 (hi' ++ b) t)) ∧
  (∀ (hi hi' : BitVec 2) (low : BitVec 6) (arg : BitVec 64),
    decodeEvent (eventWord 0x04 (hi ++ low) arg) = decodeEvent (eventWord 0x04 (hi' ++ low) arg)) ∧
  (∀ (sub sub' : Byte) (hi hi' : BitVec 16) (c : CommandWord),
    decodeEvent (eventWord 0x05 sub (hi ++ c)) = decodeEvent (eventWord 0x05 sub' (hi' ++ c))) ∧
  (∀ (sub : Byte) (arg arg' : BitVec 64), decodeEvent (eventWord 0x06 sub arg) = decodeEvent (eventWord 0x06 sub arg')) ∧
  (∀ (sub sub' : Byte) (arg arg' : BitVec 64), decodeEvent (eventWord 0x07 sub arg) = decodeEvent (eventWord 0x07 sub' arg')) ∧
  (∀ (m : ModeChars) (sub : Byte) (arg arg' : BitVec 32),
    decodeCommand m (commandWord 0x01 sub arg) = decodeCommand m (commandWord 0x01 sub arg')) ∧
  (∀ (m : ModeChars) (sub sub' : Byte) (arg : BitVec 32),
    decodeCommand m (commandWord 0x02 sub arg) = decodeCommand m (commandWord 0x02 sub' arg) ∧
    decodeCommand m (commandWord 0x03 sub arg) = decodeCommand m (commandWord 0x03 sub' arg)) ∧
  (∀ (m : ModeChars) (sub sub' : Byte) (arg arg' : BitVec 32),
    decodeCommand m (commandWord 0x05 sub arg) = decodeCommand m (commandWord 0x05 sub' arg'))

/-- R107 (an inference of the spec: "all derived from rules R92 to R98"): the worked encodings: each line is the word the table gives it, and the words decode to what the lines say. -/
def Obligations.WorkedEncodingsDecode : Prop :=
  TraceLine.reset.word = 0x00000000000000000000 ∧
  (TraceLine.ledge 1000).word = 0x010000000000000003E8 ∧
  (TraceLine.redge 1000).word = 0x020000000000000003E8 ∧
  (TraceLine.pedgeRising 1000).word = 0x030100000000000003E8 ∧
  (TraceLine.pedgeFalling 1100).word = 0x0300000000000000044C ∧
  (TraceLine.snap (some (.decimal 905 1)) (some (.decimal 15 0)) (some false) (some true)).word = 0x042F005A8000000F0000 ∧
  (TraceLine.snap none (some (.decimal 145 1)) none none).word = 0x040200000000000E8000 ∧
  (TraceLine.setticks 100).word = 0x05000000020000000064 ∧
  (TraceLine.setmode 0x66).word = 0x05000000016600000000 ∧
  (TraceLine.setbear (-90)).word = 0x050000000300FFFFFFA6 ∧
  (TraceLine.setgain 0 (.decimal 5 2)).word = 0x05000000040000000CCD ∧
  TraceLine.rstenc.word = 0x05000000050000000000 ∧
  (TraceLine.ctick 0).word = 0x06000000000000000000 ∧
  (TraceLine.ctick 2).word = 0x06020000000000000000 ∧
  TraceLine.tpop.word = 0x07000000000000000000 ∧
  decodeEvent 0x00000000000000000000 = .ok .reset ∧
  decodeEvent 0x010000000000000003E8 = .ok (.ledge 1000) ∧
  decodeEvent 0x020000000000000003E8 = .ok (.redge 1000) ∧
  decodeEvent 0x030100000000000003E8 = .ok (.pedgeR 1000) ∧
  decodeEvent 0x0300000000000000044C = .ok (.pedgeF 1100) ∧
  decodeEvent 0x042F005A8000000F0000 = .ok (.snap ⟨true, true, true, true, false, true, 0x005A8000, 0x000F0000⟩) ∧
  decodeEvent 0x040200000000000E8000 = .ok (.snap ⟨false, true, false, false, false, false, 0, 0x000E8000⟩) ∧
  decodeEvent 0x05000000020000000064 = .ok (.cpush 0x020000000064) ∧
  decodeEvent 0x05000000016600000000 = .ok (.cpush 0x016600000000) ∧
  decodeEvent 0x050000000300FFFFFFA6 = .ok (.cpush 0x0300FFFFFFA6) ∧
  decodeEvent 0x05000000040000000CCD = .ok (.cpush 0x040000000CCD) ∧
  decodeEvent 0x05000000050000000000 = .ok (.cpush 0x050000000000) ∧
  decodeEvent 0x06000000000000000000 = .ok (.ctick 0) ∧
  decodeEvent 0x06020000000000000000 = .ok (.ctick 2) ∧
  decodeEvent 0x07000000000000000000 = .ok .tpop ∧
  decodeCommand ModeChars.spec 0x020000000064 = .ok (.setticks 100) ∧
  decodeCommand ModeChars.spec 0x016600000000 = .ok .setmodeFwd ∧
  decodeCommand ModeChars.spec 0x0300FFFFFFA6 = .ok (.setbear (-90)) ∧
  decodeCommand ModeChars.spec 0x040000000CCD = .ok (.setgain 0 3277) ∧
  decodeCommand ModeChars.spec 0x050000000000 = .ok .rstenc ∧
  decodeActuation 0x010000 = .ok .fwd ∧
  decodeActuation 0x050000 = .ok .stop ∧
  decodeActuation 0x063D71 = .ok (.speed 15729) ∧
  decodeActuation 0x070000 = .ok .tiltl ∧
  decodeRecord [0x03, 0x01] = .ok (.diag 1) ∧
  decodeRecord [0x02, 0x01, 0x41] = .ok (.barcode [0x41])

/-! ## Encoder edges -/

/-- R131: LEDGE, with its encoding, its effect and its error classes. -/
def Obligations.LedgeCountsQualifyingEdges : Prop :=
  ∀ (t : Time) (s : State),
    (∀ sub : Byte, decodeEvent (eventWord 0x01 sub t) = .ok (.ledge t)) ∧
    errorClasses (.ledge t) s = [] ∧
    (s.enc.lSeen = false ∨ s.par.encDebounce ≤ (t - s.enc.lLastT).toNat →
      exec (.ledge t) s = .next { s with enc := { s.enc with
        leftTicks := BitVec.ofNat 64 ((s.enc.leftTicks.toNat + 1) % 2 ^ 64), lSeen := true, lLastT := t } }) ∧
    (s.enc.lSeen = true → (t - s.enc.lLastT).toNat < s.par.encDebounce → exec (.ledge t) s = .next s)

/-- R132: REDGE, with its encoding, its effect and its error classes. -/
def Obligations.RedgeCountsQualifyingEdges : Prop :=
  ∀ (t : Time) (s : State),
    (∀ sub : Byte, decodeEvent (eventWord 0x02 sub t) = .ok (.redge t)) ∧
    errorClasses (.redge t) s = [] ∧
    (s.enc.rSeen = false ∨ s.par.encDebounce ≤ (t - s.enc.rLastT).toNat →
      exec (.redge t) s = .next { s with enc := { s.enc with
        rightTicks := BitVec.ofNat 64 ((s.enc.rightTicks.toNat + 1) % 2 ^ 64), rSeen := true, rLastT := t } }) ∧
    (s.enc.rSeen = true → (t - s.enc.rLastT).toNat < s.par.encDebounce → exec (.redge t) s = .next s)

/-- R137 (an inference of the spec: "derived: from rules R131, R132, R135 and R136"): while only increments write them, and no count wraps, the counts never decrease. -/
def Obligations.CountsNeverDecrease : Prop :=
  ∀ (is : List Instr) (s t : State), runAll is s = .next t → onlyIncrements is s = true →
    s.enc.leftTicks.toNat + is.length < 2 ^ 64 → s.enc.rightTicks.toNat + is.length < 2 ^ 64 →
    s.enc.leftTicks.toNat ≤ t.enc.leftTicks.toNat ∧ s.enc.rightTicks.toNat ≤ t.enc.rightTicks.toNat

/-! ## The snapshot -/

/-- R121: SNAP, with its encoding, writes the fields whose valid bit is set and holds the others. -/
def Obligations.SnapHoldsInvalidFields : Prop :=
  ∀ (a : SnapArgs) (s : State), decodeEvent (eventWord 0x04 a.sub (a.heading ++ a.distance)) = .ok (.snap a) ∧ ∃ t, exec (.snap a) s = .next t ∧ t = { s with snap := t.snap } ∧
    t.snap.heading = (if a.headingValid then a.heading else s.snap.heading) ∧
    t.snap.distance = (if a.distanceValid then a.distance else s.snap.distance) ∧
    t.snap.leftBlack = (if a.leftValid then a.leftBlack else s.snap.leftBlack) ∧
    t.snap.rightBlack = (if a.rightValid then a.rightBlack else s.snap.rightBlack) ∧
    (.e1 ∈ errorClasses (.snap a) s ↔
      (a.headingValid && a.distanceValid && a.leftValid && a.rightValid) = false)

/-! ## The photodetector -/

/-- R151, R152: the rising edge, with its encoding and its error classes. -/
def Obligations.PedgeRStartsSymbolOrMeasuresSpace : Prop :=
  ∀ (t : Time) (s : State),
    (∀ hi : BitVec 7, decodeEvent (eventWord 0x03 (hi ++ 1#1) t) = .ok (.pedgeR t)) ∧
    errorClasses (.pedgeR t) s = [] ∧
    (s.bc.state = .idle →
      exec (.pedgeR t) s = .next { s with bc := { s.bc with state := .accumulating, edgeCount := 0, prevEdgeT := t } }) ∧
    (s.bc.state = .accumulating → s.bc.edgeCount.val % 2 = 1 →
      ∃ u, exec (.pedgeR t) s = .next u ∧
        u = { s with bc := { s.bc with spaceW := u.bc.spaceW, prevEdgeT := t, edgeCount := u.bc.edgeCount } } ∧
        u.bc.edgeCount.val = s.bc.edgeCount.val + 1 ∧
        ∀ j : Fin 4, u.bc.spaceW[j] =
          if j.val = s.bc.edgeCount.val / 2 then t - s.bc.prevEdgeT else s.bc.spaceW[j]) ∧
    (s.bc.state = .accumulating → s.bc.edgeCount.val % 2 = 0 → exec (.pedgeR t) s = .next s)

/-- R155, R156, R158: a falling edge that does not complete a symbol measures a bar, seeds the threshold where it is due, or
is ignored. -/
def Obligations.PedgeFMeasuresBarAndSeeds : Prop :=
  ∀ (t : Time) (s : State),
    (s.bc.state = .idle → exec (.pedgeF t) s = .next s) ∧
    (s.bc.state = .accumulating → s.bc.edgeCount.val % 2 = 1 → exec (.pedgeF t) s = .next s) ∧
    (s.bc.state = .accumulating → s.bc.edgeCount.val % 2 = 0 → s.bc.edgeCount.val ≠ 8 →
      ∃ u, exec (.pedgeF t) s = .next u ∧
        u = { s with
          bc := { s.bc with
            barW := u.bc.barW, prevEdgeT := t, edgeCount := u.bc.edgeCount, threshold := u.bc.threshold, threshValid := true } } ∧
        u.bc.edgeCount.val = s.bc.edgeCount.val + 1 ∧
        (∀ i : Fin 5, u.bc.barW[i] =
          if i.val = s.bc.edgeCount.val / 2 then t - s.bc.prevEdgeT else s.bc.barW[i]) ∧
        u.bc.threshold =
          (if s.bc.threshValid = false ∨ (s.par.seedPolicy = .perSymbol ∧ s.bc.edgeCount.val = 0) then
            BitVec.ofNat 65 (2 * (t - s.bc.prevEdgeT).toNat)
          else s.bc.threshold))

/-- R161, R167, R168, R169: the ninth interval completes the symbol in the window `b`, whatever it is; each outcome with the error
classes it reports. -/
def Obligations.NinthIntervalClassifies : Prop :=
  ∀ (t : Time) (s : State), s.bc.state = .accumulating → s.bc.edgeCount.val = 8 →
    ∃ (b : BarcodeRegs) (u : State),
      (b.prevEdgeT = t ∧ (∀ i : Fin 5, b.barW[i] = if i.val = 4 then t - s.bc.prevEdgeT else s.bc.barW[i]) ∧
        b.spaceW = s.bc.spaceW ∧ b.threshValid = true ∧
        b.threshold = (if s.bc.threshValid = false then BitVec.ofNat 65 (2 * (t - s.bc.prevEdgeT).toNat) else s.bc.threshold)) ∧
      exec (.pedgeF t) s = .next u ∧
      u = { s with bc := u.bc, telemQ := u.telemQ } ∧
      u.bc = ⟨.idle, 0, t, #v[0, 0, 0, 0, 0], #v[0, 0, 0, 0], true, b.threshold, u.bc.reversed, u.bc.assembled⟩ ∧
      (let bars := b.barW.toList.map (fun w => decide (b.threshold.toNat < w.toNat))
       let spaces := b.spaceW.toList.map (fun w => decide (b.threshold.toNat < w.toNat))
       let cn := decodeSymbol bars spaces
       let cr := decodeSymbol bars.reverse spaces.reverse
       let c := if s.bc.reversed then cr else cn
       let e3 : List ErrorClass := if s.telemQ.length < s.par.telemDepth then [] else [.e3]
       (s.bc.assembled = [] → cn = sentinel →
         u.bc.reversed = false ∧ u.bc.assembled = [sentinel] ∧ u.telemQ = s.telemQ ∧ errorClasses (.pedgeF t) s = []) ∧
       (s.bc.assembled = [] → cn ≠ sentinel → cr = sentinel →
         u.bc.reversed = true ∧ u.bc.assembled = [sentinel] ∧ u.telemQ = s.telemQ ∧ errorClasses (.pedgeF t) s = []) ∧
       (s.bc.assembled = [] → cn ≠ sentinel → cr ≠ sentinel →
         u.bc.reversed = s.bc.reversed ∧ u.bc.assembled = [] ∧
         u.telemQ = (if s.telemQ.length < s.par.telemDepth then s.telemQ ++ [.diag 0x01] else s.telemQ) ∧
         errorClasses (.pedgeF t) s = .e2 :: e3) ∧
       (s.bc.assembled ≠ [] → c = sentinel →
         u.bc.reversed = false ∧ u.bc.assembled = [] ∧
         u.telemQ = (if s.telemQ.length < s.par.telemDepth then s.telemQ ++ [.barcode s.bc.assembled.tail] else s.telemQ) ∧
         errorClasses (.pedgeF t) s = e3) ∧
       (s.bc.assembled ≠ [] → c ≠ sentinel →
         u.bc.reversed = s.bc.reversed ∧ u.telemQ = s.telemQ ∧ errorClasses (.pedgeF t) s = [] ∧
         u.bc.assembled = (if s.bc.assembled.length < s.par.assembledMax then s.bc.assembled ++ [c] else s.bc.assembled)))

/-- R162, R163, R164, R165 (the patterns are the spec's "from general knowledge, not in source", log entry 18): the map from patterns to characters, entry by entry, and `~` for every other pair of patterns. -/
def Obligations.SymbolTableMapsPatternsToCharacters : Prop :=
  let bars : List (List Bool) :=
    [[true, false, false, false, true], [false, true, false, false, true], [true, true, false, false, false],
     [false, false, true, false, true], [true, false, true, false, false], [false, true, true, false, false],
     [false, false, false, true, true], [true, false, false, true, false], [false, true, false, true, false],
     [false, false, true, true, false]]
  let spaces : List (List Bool) :=
    [[false, true, false, false], [false, false, true, false], [false, false, false, true], [true, false, false, false]]
  spaces.flatMap (fun s => bars.map (fun b => decodeSymbol b s)) =
    ([48, 49, 50, 51, 52, 53, 54, 55, 56, 57, 65, 66, 67, 68, 69, 70, 71, 72, 73, 74, 75, 76, 77, 78, 79, 80, 81, 82, 83, 84,
      85, 86, 87, 88, 89, 90, 45, 46, 32, 42] : List Byte) ∧
  (∀ b s : List Bool, b ∉ bars ∨ s ∉ spaces → decodeSymbol b s = 0x7E)

/-- R43: a record leaves the engine, or a scan register changes, only at the ninth interval of a symbol. -/
def Obligations.ClassificationNeedsNineIntervals : Prop :=
  ∀ (t : Time) (s u : State), (exec (.pedgeF t) s = .next u ∨ exec (.pedgeR t) s = .next u) →
    (u.telemQ ≠ s.telemQ ∨ u.bc.assembled ≠ s.bc.assembled ∨ u.bc.reversed ≠ s.bc.reversed ∨
      (s.bc.state = .accumulating ∧ u.bc.state = .idle)) →
    s.bc.state = .accumulating ∧ s.bc.edgeCount.val = 8

/-- R171 (an inference of the spec: "derived: from rules R151 to R169", over tables marked "from general knowledge, not in source", log
entry 18): with the policy `once`, from the engine's reset state, narrow elements of one width `n` > 0 and wide ones of one width
above `2n`, a character between two sentinels comes out as its own payload, scanned forwards; the gaps may be any. -/
def Obligations.BarcodeRoundTripForwards : Prop :=
  ∀ (s : State) (n w t1 t2 t3 : Time) (bars spaces : List Bool) (v o : Nat),
    s.bc = BarcodeRegs.reset → s.par.Valid → s.par.seedPolicy = .once →
    0 < n.toNat → 2 * n.toNat < w.toNat →
    (bars, v) ∈ barTable → (spaces, o) ∈ spaceTable → decodeSymbol bars spaces ≠ sentinel →
    ∃ u, runAll
        (symbolEdges n w t1 [false, false, true, true, false] [true, false, false, false]
          ++ symbolEdges n w t2 bars spaces
          ++ symbolEdges n w t3 [false, false, true, true, false] [true, false, false, false]) s = .next u ∧
      u.telemQ = (if s.telemQ.length < s.par.telemDepth then s.telemQ ++ [.barcode [decodeSymbol bars spaces]] else s.telemQ) ∧
      u.bc.assembled = [] ∧ u.bc.reversed = false ∧ u.bc.state = .idle ∧ u.actOut = s.actOut

/-- R171, backwards (an inference of the spec, as above, log entry 18): the same print crossed in the other direction, every symbol's elements in the opposite order. -/
def Obligations.BarcodeRoundTripBackwards : Prop :=
  ∀ (s : State) (n w t1 t2 t3 : Time) (bars spaces : List Bool) (v o : Nat),
    s.bc = BarcodeRegs.reset → s.par.Valid → s.par.seedPolicy = .once →
    0 < n.toNat → 2 * n.toNat < w.toNat →
    (bars, v) ∈ barTable → (spaces, o) ∈ spaceTable → decodeSymbol bars spaces ≠ sentinel →
    ∃ u, runAll
        (symbolEdges n w t1 [false, true, true, false, false] [false, false, false, true]
          ++ symbolEdges n w t2 bars.reverse spaces.reverse
          ++ symbolEdges n w t3 [false, true, true, false, false] [false, false, false, true]) s = .next u ∧
      u.telemQ = (if s.telemQ.length < s.par.telemDepth then s.telemQ ++ [.barcode [decodeSymbol bars spaces]] else s.telemQ) ∧
      u.bc.assembled = [] ∧ u.bc.reversed = false ∧ u.bc.state = .idle ∧ u.actOut = s.actOut

/-! ## The channels -/

/-- R190, R63, R303: CPUSH appends the word as it is, and on a full queue loses it without a trace. -/
def Obligations.CpushAppendsOrDrops : Prop :=
  ∀ (c : CommandWord) (s : State),
    (∀ (sub : Byte) (hi : BitVec 16), decodeEvent (eventWord 0x05 sub (hi ++ c)) = .ok (.cpush c)) ∧
    (s.cmdQ.length < s.par.cmdDepth →
      exec (.cpush c) s = .next { s with cmdQ := s.cmdQ ++ [c] } ∧ errorClasses (.cpush c) s = []) ∧
    (s.par.cmdDepth ≤ s.cmdQ.length → exec (.cpush c) s = .next s ∧ errorClasses (.cpush c) s = [.e3])

/-- R296, R64: TPOP hands the oldest record to the host, and on an empty queue changes nothing. -/
def Obligations.TpopTakesOldestRecord : Prop :=
  (∀ (sub : Byte) (arg : BitVec 64), decodeEvent (eventWord 0x07 sub arg) = .ok .tpop) ∧
  (∀ s : State, errorClasses .tpop s = []) ∧
  (∀ s : State, s.telemQ = [] → exec .tpop s = .next s) ∧
  (∀ (s : State) (r : Record) (rest : List Record), s.telemQ = r :: rest →
    exec .tpop s = .next { s with telemQ := rest, telemOut := s.telemOut ++ [r] })

/-- R291, R292, R293 and R63: the push of each record (that a record given alone to the block is pushed is the model's choice, log
entry 3). -/
def Obligations.RecordsArePushedOrDropped : Prop :=
  ∀ (r : Record) (s : State),
    exec r.toInstr s =
      .next { s with telemQ := if s.telemQ.length < s.par.telemDepth then s.telemQ ++ [r] else s.telemQ }

/-- R270 to R278: each actuation word (that a word given alone to the block is emitted is the model's choice, log entry 3) is appended to the output stream, and each has the format A word of its rule. -/
def Obligations.ActuationWordsAreEmitted : Prop :=
  (∀ (a : Actuation) (s : State), exec a.toInstr s = .next { s with actOut := s.actOut ++ [a] }) ∧
  encodeActuation .fwd = 0x010000 ∧ encodeActuation .bwd = 0x020000 ∧ encodeActuation .rcw = 0x030000 ∧
  encodeActuation .rccw = 0x040000 ∧ encodeActuation .stop = 0x050000 ∧ encodeActuation .tiltl = 0x070000 ∧
  encodeActuation .tiltr = 0x080000 ∧ ∀ v : BitVec 16, encodeActuation (.speed v) = 0x06#8 ++ v

/-! ## Command words -/

/-- R191: every control tick polls first; the poll pops the oldest word and runs its rule at once; on an empty queue, and on a
reserved word but for its removal, nothing happens. A word is whatever decodes to its command, its ignored bits of any value; the last
clause is the word with those bits 0. -/
def Obligations.PollRunsOldestCommand : Prop :=
  (∀ (lockFail : Byte) (s : State), exec (.ctick lockFail) s = .next (telemetryStep lockFail (behave (poll s)))) ∧
  (∀ (s : State) (w : CommandWord) (rest : List CommandWord) (e : DecodeError), s.cmdQ = w :: rest →
    decodeCommand s.par.modeChars w = .error e → poll s = { s with cmdQ := rest }) ∧
  (∀ s : State, s.cmdQ = [] → poll s = s) ∧
  (∀ (s : State) (w : CommandWord) (c : Command) (rest : List CommandWord), s.cmdQ = w :: rest →
    decodeCommand s.par.modeChars w = .ok c → exec c.toInstr { s with cmdQ := rest } = .next (poll s)) ∧
  (∀ (s : State) (c : Command) (rest : List CommandWord), s.par.Valid →
    s.cmdQ = encodeCommand s.par.modeChars c :: rest → exec c.toInstr { s with cmdQ := rest } = .next (poll s))

/-- R192, R195 and R215: SETMODE.IDLE and SETMODE.TURN write the registers of a mode entry and no other. -/
def Obligations.SetmodeIdleAndTurnEnter : Prop :=
  ∀ s : State,
    exec .setmodeIdle s = .next { s with ctl := { s.ctl with
      mode := .idle, lastError := 0, errSum := 0, steadyCounter := 0, ctrl := 0, speed := 0 } } ∧
    exec .setmodeTurn s = .next { s with ctl := { s.ctl with
      mode := .turn, lastError := 0, errSum := 0, steadyCounter := 0, ctrl := 0, speed := 0 } }

/-- R193, R194: SETMODE.FWD and SETMODE.BA also set both counts to 0, the debounce registers kept. -/
def Obligations.SetmodeFwdAndBaResetCounts : Prop :=
  ∀ s : State,
    exec .setmodeFwd s = .next { s with
      enc := { s.enc with leftTicks := 0, rightTicks := 0 }
      ctl := { s.ctl with mode := .forward, lastError := 0, errSum := 0, steadyCounter := 0, ctrl := 0, speed := 0 } } ∧
    exec .setmodeBa s = .next { s with
      enc := { s.enc with leftTicks := 0, rightTicks := 0 }
      ctl := { s.ctl with mode := .barcodeApproach, lastError := 0, errSum := 0, steadyCounter := 0, ctrl := 0, speed := 0 } }

/-- R196: SETTICKS writes the target in any mode; a negative operand changes nothing. -/
def Obligations.SetticksWritesTarget : Prop :=
  ∀ (n : BitVec 32) (s : State),
    (∀ (m : ModeChars) (sub : Byte), decodeCommand m (commandWord 0x02 sub n) = .ok (.setticks n)) ∧
    errorClasses (.setticks n) s = [] ∧
    (0 ≤ n.toInt → exec (.setticks n) s = .next { s with ctl := { s.ctl with targetTicks := BitVec.ofNat 64 n.toNat } }) ∧
    (n.toInt < 0 → exec (.setticks n) s = .next s)

/-- R197: SETBEAR, relative to the whole degrees of the heading, modulo 360. -/
def Obligations.SetbearIsRelativeModulo360 : Prop :=
  ∀ (delta : BitVec 32) (s : State),
    (∀ (m : ModeChars) (sub : Byte), decodeCommand m (commandWord 0x03 sub delta) = .ok (.setbear delta)) ∧
    errorClasses (.setbear delta) s = [] ∧
    ∃ b : BitVec 16, exec (.setbear delta) s = .next { s with ctl := { s.ctl with targetBearing := b } } ∧
      b.toNat < 360 ∧ ∃ k : Int, (b.toNat : Int) = s.snap.heading.toInt.fdiv 65536 + delta.toInt + 360 * k

/-- R198: SETGAIN writes the gain its selector names and no other; a selector above 5 changes nothing. -/
def Obligations.SetgainWritesOneGain : Prop :=
  ∀ (v : Q16) (s : State),
    exec (.setgain 0 v) s = .next { s with ctl := { s.ctl with gains := { s.ctl.gains with kpF := v } } } ∧
    exec (.setgain 1 v) s = .next { s with ctl := { s.ctl with gains := { s.ctl.gains with kiF := v } } } ∧
    exec (.setgain 2 v) s = .next { s with ctl := { s.ctl with gains := { s.ctl.gains with kdF := v } } } ∧
    exec (.setgain 3 v) s = .next { s with ctl := { s.ctl with gains := { s.ctl.gains with kpT := v } } } ∧
    exec (.setgain 4 v) s = .next { s with ctl := { s.ctl with gains := { s.ctl.gains with kiT := v } } } ∧
    exec (.setgain 5 v) s = .next { s with ctl := { s.ctl with gains := { s.ctl.gains with kdT := v } } } ∧
    (∀ sel : Byte, 5 < sel.toNat → exec (.setgain sel v) s = .next s) ∧
    (∀ sel : Byte, errorClasses (.setgain sel v) s = []) ∧
    (∀ (m : ModeChars) (sel : Byte), decodeCommand m (commandWord 0x04 sel v) = .ok (.setgain sel v))

/-- R199: RSTENC sets both counts to 0 in Idle and Turn and changes nothing in the other four modes. -/
def Obligations.RstencOnlyInIdleAndTurn : Prop :=
  (∀ (m : ModeChars) (sub : Byte) (arg : BitVec 32), decodeCommand m (commandWord 0x05 sub arg) = .ok .rstenc) ∧
  ∀ s : State,
    errorClasses .rstenc s = [] ∧
    (s.ctl.mode = .idle ∨ s.ctl.mode = .turn →
      exec .rstenc s = .next { s with enc := { s.enc with leftTicks := 0, rightTicks := 0 } }) ∧
    (s.ctl.mode ≠ .idle → s.ctl.mode ≠ .turn → exec .rstenc s = .next s)

/-! ## The control tick -/

/-- R211: the control tick polls, behaves and does telemetry, in this order, all in one event. What `poll`, `behave` and `telemetryStep`
do is said below and in `PollRunsOldestCommand` for every state; where no command waits and no record is due the tick is `behave` and a
count of the tick. -/
def Obligations.CtickRunsItsStepsInOrder : Prop :=
  (∀ (lockFail : Byte) (arg : BitVec 64), decodeEvent (eventWord 0x06 lockFail arg) = .ok (.ctick lockFail)) ∧
  ∀ (lockFail : Byte) (s : State),
    exec (.ctick lockFail) s = .next (telemetryStep lockFail (behave (poll s))) ∧
    (s.Quiet →
      exec (.ctick lockFail) s = .next { behave s with
        ctl := { (behave s).ctl with telemCounter := s.ctl.telemCounter + 1 } })

/-- R220: step 3 in Idle emits STOP and changes no register. -/
def Obligations.IdleTickEmitsStop : Prop :=
  ∀ s : State, s.ctl.mode = .idle → behave s = { s with actOut := s.actOut ++ [.stop] }

/-- R230, R231, R232, R233: step 3 of a Forward or BarcodeApproach tick in the zero-control zone stops and counts, and at the end of the
dwell goes to ReverseTransition on an overshoot and to Idle otherwise. -/
def Obligations.ForwardZoneStopsAndSettles : Prop :=
  ∀ s : State, (s.ctl.mode = .forward ∨ s.ctl.mode = .barcodeApproach) →
    let target : BitVec 64 := if s.snap.distance.toInt < s.par.obstacleCm * 65536 then 0 else s.ctl.targetTicks
    let e : Int := (target.toNat : Int) - s.enc.leftTicks.toNat
    let u : Int := s.ctl.gains.kpF.toInt * e + s.ctl.gains.kdF.toInt * (e - s.ctl.lastError.toInt)
    let c : Int := min (max u (-65536)) 65536
    let n : Nat := s.ctl.steadyCounter.toNat + 1
    let entered (m : Mode) : State := { s with
      ctl := { s.ctl with mode := m, targetTicks := target, lastError := 0, errSum := 0, steadyCounter := 0, ctrl := 0, speed := 0 }
      actOut := s.actOut ++ [.stop] }
    e ≤ s.par.tolTicks →
    (n < s.par.steadyWindow →
      behave s = { s with
        ctl := { s.ctl with targetTicks := target, lastError := BitVec.ofInt 66 e, ctrl := BitVec.ofInt 32 c, speed := 0,
                            steadyCounter := s.ctl.steadyCounter + 1 }
        actOut := s.actOut ++ [.stop] }) ∧
    (s.par.steadyWindow ≤ n → e < -(s.par.tolTicks : Int) → behave s = entered .reverseTransition) ∧
    (s.par.steadyWindow ≤ n → -(s.par.tolTicks : Int) ≤ e → behave s = entered .idle)

/-- R230, R231, R234 to R239: step 3 of a Forward or BarcodeApproach tick outside the zone drives with the two corrections (the line
correction in Forward only), or stops when the control is not positive. -/
def Obligations.ForwardDrivesOutsideZone : Prop :=
  ∀ s : State, (s.ctl.mode = .forward ∨ s.ctl.mode = .barcodeApproach) →
    let target : BitVec 64 := if s.snap.distance.toInt < s.par.obstacleCm * 65536 then 0 else s.ctl.targetTicks
    let e : Int := (target.toNat : Int) - s.enc.leftTicks.toNat
    let u : Int := s.ctl.gains.kpF.toInt * e + s.ctl.gains.kdF.toInt * (e - s.ctl.lastError.toInt)
    let c : Int := min (max u (-65536)) 65536
    let v : BitVec 16 := BitVec.ofInt 16 (c * s.par.speedMax / 65536)
    let k : Int := s.par.lineCorrMult * s.par.wdGain
    let line : Int := if s.ctl.mode = .forward then
        (if s.snap.leftBlack then k else 0) - (if s.snap.rightBlack then k else 0) else 0
    let diff : Int := (s.enc.leftTicks.toNat : Int) - s.enc.rightTicks.toNat
    let calls : Int := min (s.par.wdGain * |diff|) s.par.tiltCap
    let steer : Int := (if 0 < diff then -calls else if diff < 0 then calls else 0) + line
    (s.par.tolTicks : Int) < e →
    (0 < c →
      behave s = { s with
        ctl := { s.ctl with targetTicks := target, lastError := BitVec.ofInt 66 e, ctrl := BitVec.ofInt 32 c, speed := v,
                            steadyCounter := 0 }
        actOut := s.actOut ++ [.fwd, .speed v] ++
          (if 0 < steer then List.replicate steer.toNat .tiltr else List.replicate (-steer).toNat .tiltl) }) ∧
    (c ≤ 0 →
      behave s = { s with
        ctl := { s.ctl with targetTicks := target, lastError := BitVec.ofInt 66 e, ctrl := BitVec.ofInt 32 c, speed := 0,
                            steadyCounter := 0 }
        actOut := s.actOut ++ [.stop] })

/-- R243: step 3 of a Reverse tick: the same law, no obstacle check, BWD, the wheel correction of the opposite sign, and a dwell that always
ends in Idle. -/
def Obligations.ReverseTickDrivesBackwards : Prop :=
  ∀ s : State, s.ctl.mode = .reverse →
    let e : Int := (s.ctl.targetTicks.toNat : Int) - s.enc.leftTicks.toNat
    let u : Int := s.ctl.gains.kpF.toInt * e + s.ctl.gains.kdF.toInt * (e - s.ctl.lastError.toInt)
    let c : Int := min (max u (-65536)) 65536
    let v : BitVec 16 := BitVec.ofInt 16 (c * s.par.speedMax / 65536)
    let diff : Int := (s.enc.leftTicks.toNat : Int) - s.enc.rightTicks.toNat
    let calls : Nat := min (s.par.wdGain * diff.natAbs) s.par.tiltCap
    let n : Nat := s.ctl.steadyCounter.toNat + 1
    let law (v : BitVec 16) (steady : BitVec 16) : ControllerRegs :=
      { s.ctl with lastError := BitVec.ofInt 66 e, ctrl := BitVec.ofInt 32 c, speed := v, steadyCounter := steady }
    (e ≤ s.par.tolTicks → n < s.par.steadyWindow →
      behave s = { s with ctl := law 0 (s.ctl.steadyCounter + 1), actOut := s.actOut ++ [.stop] }) ∧
    (e ≤ s.par.tolTicks → s.par.steadyWindow ≤ n →
      behave s = { s with
        ctl := { s.ctl with mode := .idle, lastError := 0, errSum := 0, steadyCounter := 0, ctrl := 0, speed := 0 }
        actOut := s.actOut ++ [.stop] }) ∧
    ((s.par.tolTicks : Int) < e → 0 < c →
      behave s = { s with
        ctl := law v 0
        actOut := s.actOut ++ [.bwd, .speed v] ++
          (if 0 < diff then List.replicate calls .tiltr else if diff < 0 then List.replicate calls .tiltl else []) }) ∧
    ((s.par.tolTicks : Int) < e → c ≤ 0 →
      behave s = { s with ctl := law 0 0, actOut := s.actOut ++ [.stop] })

/-- R240, R241: step 3 of a ReverseTransition tick stops and counts; the tick that fills the dwell captures the offset pair and the new
target and enters Reverse. -/
def Obligations.ReverseTransitionDwellsThenCaptures : Prop :=
  ∀ s : State, s.ctl.mode = .reverseTransition →
    let l : Int := s.enc.leftTicks.toNat
    let r : Int := s.enc.rightTicks.toNat
    let overshoot : Int := max (l - s.ctl.targetTicks.toNat) 0
    (s.ctl.steadyCounter.toNat + 1 < s.par.rtDwellTicks →
      behave s = { s with
        ctl := { s.ctl with steadyCounter := s.ctl.steadyCounter + 1 }
        actOut := s.actOut ++ [.stop] }) ∧
    (s.par.rtDwellTicks ≤ s.ctl.steadyCounter.toNat + 1 →
      let t := behave s
      t = { s with
        enc := { s.enc with leftTicks := t.enc.leftTicks, rightTicks := t.enc.rightTicks }
        ctl := { s.ctl with mode := .reverse, targetTicks := t.ctl.targetTicks, lastError := 0, errSum := 0,
                            steadyCounter := 0, ctrl := 0, speed := 0 }
        actOut := s.actOut ++ [.stop] } ∧
      (t.enc.leftTicks.toNat : Int) = max (l - r) 0 ∧
      (t.enc.rightTicks.toNat : Int) = max (r - l) 0 ∧
      (t.ctl.targetTicks.toNat : Int) = min (overshoot + max (l - r) 0) (2 ^ 64 - 1))

/-- R245, R247, R248: step 3 of a Turn tick: the PID law on the wrapped error with the saturated sum, the settle window, and a rotation or,
when the window is full, STOP and Idle. -/
def Obligations.TurnTickRunsPidLaw : Prop :=
  ∀ s : State, s.ctl.mode = .turn →
    let e : Int := wrap180 ((s.ctl.targetBearing.toNat : Int) * 65536 - s.snap.heading.toInt)
    let sum : Int := min (max (s.ctl.errSum.toInt + e) (-2 ^ 63)) (2 ^ 63 - 1)
    let uw : Int := s.ctl.gains.kpT.toInt * e + s.ctl.gains.kiT.toInt * sum +
      s.ctl.gains.kdT.toInt * (e - s.ctl.lastError.toInt)
    let c : Int := min (max (uw.tdiv 65536) (-65536)) 65536
    let v : BitVec 16 := BitVec.ofInt 16 (|c| * s.par.speedMax / 65536)
    let steady : Nat := if |e| ≤ s.par.tolDeg * 65536 then s.ctl.steadyCounter.toNat + 1 else 0
    (steady < s.par.steadyWindow →
      behave s = { s with
        ctl := { s.ctl with errSum := BitVec.ofInt 64 sum, lastError := BitVec.ofInt 66 e, ctrl := BitVec.ofInt 32 c,
                            speed := v, steadyCounter := BitVec.ofNat 16 steady }
        actOut := s.actOut ++ [if 0 < c then .rcw else .rccw, .speed v] }) ∧
    (s.par.steadyWindow ≤ steady →
      behave s = { s with
        ctl := { s.ctl with mode := .idle, lastError := 0, errSum := 0, steadyCounter := 0, ctrl := 0, speed := 0 }
        actOut := s.actOut ++ [.stop] })

/-- R246: `wrap180` of any raw difference takes one correction at most; the two ends are returned as they are and reached by targets and
headings in range (90_conflicts.md C7); on a target of whole degrees and a heading in range the result is the shortest way round. -/
def Obligations.WrapOneEightyIsShortestWay : Prop :=
  (∀ raw : Int,
    (180 * 65536 < raw → wrap180 raw = raw - 360 * 65536) ∧
    (raw < -(180 * 65536) → wrap180 raw = raw + 360 * 65536) ∧
    (-(180 * 65536) ≤ raw → raw ≤ 180 * 65536 → wrap180 raw = raw)) ∧
  wrap180 (180 * 65536 - 0) = 180 * 65536 ∧
  wrap180 (0 * 65536 - 180 * 65536) = -(180 * 65536) ∧
  ∀ target heading : Int, 0 ≤ target → target < 360 → 0 ≤ heading → heading < 360 * 65536 →
    let e := wrap180 (target * 65536 - heading)
    e ≤ 180 * 65536 ∧ -(180 * 65536) ≤ e ∧
      ∃ k : Int, e = target * 65536 - heading + k * (360 * 65536) ∧ (k = -1 ∨ k = 0 ∨ k = 1)

/-- R236: the scaled speed is the floor of the rule, runs from 0 to `SPEED_MAX` and is monotone in the control. -/
def Obligations.SpeedScalingIsMonotoneAndBounded : Prop :=
  ∀ (s : State) (c d : Int), |c| ≤ 65536 → |d| ≤ 65536 →
    (s.scaledSpeed c : Int) = |c| * s.par.speedMax / 65536 ∧ s.scaledSpeed c ≤ s.par.speedMax ∧ s.scaledSpeed 65536 = s.par.speedMax ∧ s.scaledSpeed 0 = 0 ∧
    (|c| ≤ |d| → s.scaledSpeed c ≤ s.scaledSpeed d)

/-- R257 (an inference of the spec: "derived: from rules R211 and R230"): the tick that pops SETMODE.FWD with an obstacle in range forces the target to 0 in that same tick. -/
def Obligations.ObstacleForcesTargetInOneTick : Prop :=
  ∀ (lockFail : Byte) (s : State) (rest : List CommandWord), s.par.Valid →
    s.cmdQ = encodeCommand s.par.modeChars .setmodeFwd :: rest → s.snap.distance.toInt < s.par.obstacleCm * 65536 →
    ∃ t, exec (.ctick lockFail) s = .next t ∧ t.ctl.targetTicks = 0 ∧ .e4 ∈ errorClasses (.ctick lockFail) s

/-- R289, R290, R291: step 4 with no record due counts; with one due it clears the counter, stops once for each failed try and
pushes the record of the registers, or skips it when every try failed. -/
def Obligations.TelemetryStepSendsStatusUnderLock : Prop :=
  ∀ (lockFail : Byte) (s : State),
    let period := if s.ctl.mode = .idle then s.par.telemPeriodIdle else s.par.telemPeriodMove
    let f := min lockFail.toNat s.par.telemRetryMax
    let record : Record := .status
      { modeTag := s.par.modeChars.of s.ctl.mode, left := s.enc.leftTicks, right := s.enc.rightTicks
        target := s.ctl.targetTicks, bearing := s.ctl.targetBearing, error := s.ctl.lastError.signExtend 72
        control := s.ctl.ctrl
        kp := if s.ctl.mode = .turn then s.ctl.gains.kpT else s.ctl.gains.kpF
        ki := if s.ctl.mode = .turn then s.ctl.gains.kiT else s.ctl.gains.kiF
        kd := if s.ctl.mode = .turn then s.ctl.gains.kdT else s.ctl.gains.kdF
        speed := s.ctl.speed }
    (s.ctl.telemCounter.toNat + 1 < period →
      telemetryStep lockFail s = { s with ctl := { s.ctl with telemCounter := s.ctl.telemCounter + 1 } }) ∧
    (period ≤ s.ctl.telemCounter.toNat + 1 →
      telemetryStep lockFail s = { s with
        ctl := { s.ctl with telemCounter := 0 }
        actOut := s.actOut ++ List.replicate f .stop
        telemQ := if lockFail.toNat < s.par.telemRetryMax ∧ s.telemQ.length < s.par.telemDepth
          then s.telemQ ++ [record] else s.telemQ })

/-- R297 (an inference of the spec: "derived: from 20_memory.md rule R63 and rule R290"): with the Telemetry Channel full a control tick does what it does with any other content of it, but for the channel,
which it leaves as it is. -/
def Obligations.FullTelemetryNeverAffectsTick : Prop :=
  ∀ (lockFail : Byte) (s t : State) (q : List Record), s.par.telemDepth ≤ q.length →
    exec (.ctick lockFail) s = .next t → exec (.ctick lockFail) { s with telemQ := q } = .next { t with telemQ := q }

/-- R279 (an inference of the spec: "derived: from 44_controller.md rules R220 to R245 and rule R290"), R271 to R278: what a control tick emits: STOP alone, or a direction word that the mode of step 3 allows with its speed and tilt words of
one kind, then STOP words of failed lock tries. -/
def Obligations.TickEmitsOneOrderedSequence : Prop :=
  ∀ (lockFail : Byte) (s t : State), exec (.ctick lockFail) s = .next t →
    ∃ (ws : List Actuation) (f : Nat), t.actOut = s.actOut ++ ws ++ List.replicate f .stop ∧ f ≤ s.par.telemRetryMax ∧
      (ws = [.stop] ∨
        ∃ (dir tilt : Actuation) (v : BitVec 16) (k : Nat), ws = dir :: .speed v :: List.replicate k tilt ∧
          (tilt = .tiltl ∨ tilt = .tiltr) ∧ k ≤ s.par.tiltCap + s.par.lineCorrMult * s.par.wdGain ∧
          ((dir = .fwd ∧ ((poll s).ctl.mode = .forward ∨ (poll s).ctl.mode = .barcodeApproach)) ∨
           (dir = .bwd ∧ (poll s).ctl.mode = .reverse) ∨
           ((dir = .rcw ∨ dir = .rccw) ∧ (poll s).ctl.mode = .turn ∧ k = 0)))

/-- R255 (an inference of the spec: "derived: from rules R215 to R245 and 43_commands.md rules R192 to R195"): every mode change and
its cause: RESET, the command words and a popped command, and the ends of the dwells in step 3 of a
control tick, each with the condition of its row; no other event changes the mode. -/
def Obligations.ModeChangesOnlyAsListed : Prop :=
  (∀ (i : Instr) (s t : State), exec i s = .next t → i.format ≠ .C → i ≠ .reset → (∀ f, i ≠ .ctick f) →
    t.ctl.mode = s.ctl.mode) ∧
  (∀ s t : State, exec .reset s = .next t → t.ctl.mode = .idle) ∧
  (∀ (c : Command) (s t : State), exec c.toInstr s = .next t → t.ctl.mode = s.ctl.mode ∨
    (c = .setmodeIdle ∧ t.ctl.mode = .idle) ∨ (c = .setmodeFwd ∧ t.ctl.mode = .forward) ∨
    (c = .setmodeBa ∧ t.ctl.mode = .barcodeApproach) ∨ (c = .setmodeTurn ∧ t.ctl.mode = .turn)) ∧
  (∀ s : State, (poll s).ctl.mode = s.ctl.mode ∨
    (polledCommand s = some .setmodeIdle ∧ (poll s).ctl.mode = .idle) ∨
    (polledCommand s = some .setmodeFwd ∧ (poll s).ctl.mode = .forward) ∨
    (polledCommand s = some .setmodeBa ∧ (poll s).ctl.mode = .barcodeApproach) ∨
    (polledCommand s = some .setmodeTurn ∧ (poll s).ctl.mode = .turn)) ∧
  (∀ (lockFail : Byte) (s t : State), exec (.ctick lockFail) s = .next t → 1 ≤ s.par.steadyWindow →
    let p := poll s
    let target : BitVec 64 := if p.snap.distance.toInt < p.par.obstacleCm * 65536 then 0 else p.ctl.targetTicks
    let e : Int := (target.toNat : Int) - p.enc.leftTicks.toNat
    let full : Prop := s.par.steadyWindow ≤ p.ctl.steadyCounter.toNat + 1
    t.ctl.mode = p.ctl.mode ∨
    ((p.ctl.mode = .forward ∨ p.ctl.mode = .barcodeApproach) ∧ t.ctl.mode = .idle ∧ full ∧
      -(s.par.tolTicks : Int) ≤ e ∧ e ≤ s.par.tolTicks) ∨
    ((p.ctl.mode = .forward ∨ p.ctl.mode = .barcodeApproach) ∧ t.ctl.mode = .reverseTransition ∧ full ∧
      e < -(s.par.tolTicks : Int)) ∨
    (p.ctl.mode = .reverseTransition ∧ t.ctl.mode = .reverse ∧ s.par.rtDwellTicks ≤ p.ctl.steadyCounter.toNat + 1) ∨
    (p.ctl.mode = .reverse ∧ t.ctl.mode = .idle ∧ full ∧
      (p.ctl.targetTicks.toNat : Int) - p.enc.leftTicks.toNat ≤ s.par.tolTicks) ∨
    (p.ctl.mode = .turn ∧ t.ctl.mode = .idle ∧ full ∧
      |wrap180 ((p.ctl.targetBearing.toNat : Int) * 65536 - p.snap.heading.toInt)| ≤ s.par.tolDeg * 65536))

/-- R241: "the first Reverse error is exactly `O`": the capture leaves target and left count apart by the overshoot, and keeps the
differential of the two counts. -/
def Obligations.CaptureKeepsOvershootAndDifferential : Prop :=
  ∀ s : State, s.enc.leftTicks.toNat < 2 ^ 63 →
    let t := capture s
    t.ctl.mode = .reverse ∧
    (t.ctl.targetTicks.toNat : Int) - t.enc.leftTicks.toNat = max ((s.enc.leftTicks.toNat : Int) - s.ctl.targetTicks.toNat) 0 ∧
    (t.enc.leftTicks.toNat : Int) - t.enc.rightTicks.toNat = (s.enc.leftTicks.toNat : Int) - s.enc.rightTicks.toNat

/-- R233, R256 (an inference of the spec: "derived: from rules R231 to R233"): a Forward run whose left count rests within the tolerance, with no obstacle, no command and no lock failure, is in Idle
when the ticks that were missing from the steady window are over, and nothing but STOP was emitted. -/
def Obligations.ForwardSettlesWithinWindow : Prop :=
  ∀ (s : State) (k : Nat), s.par.Valid → s.cmdQ = [] → s.ctl.mode = .forward →
    (s.par.obstacleCm : Int) * 65536 ≤ s.snap.distance.toInt →
    |(s.ctl.targetTicks.toNat : Int) - s.enc.leftTicks.toNat| ≤ s.par.tolTicks →
    s.ctl.steadyCounter.toNat + k = s.par.steadyWindow → 1 ≤ k →
    ∃ t, runAll (List.replicate k (.ctick 0)) s = .next t ∧ t.ctl.mode = .idle ∧
      t.actOut = s.actOut ++ List.replicate k .stop ∧ t.enc = s.enc

/-- R301 to R305, R307 (an inference of the spec: "derived: from 44_controller.md rule R211 and 42_barcode.md rule R167"; that the classes are a
function beside `exec` is the model's choice, log entry 12): the classes a control tick and a falling edge report, in their order, and their
responses. A tick reports E4 exactly when the mode after the poll is Forward or BarcodeApproach and the distance is below the limit, and then the
target is 0; where a status record is due it reports one E5 for each failed try, with its STOP, and E3 exactly when the lock is taken and the
channel is full, which then stays as it was. -/
def Obligations.ErrorClassesMatchResponses : Prop :=
  (∀ (lockFail : Byte) (s : State),
    let p := poll s
    let b := behave p
    let period := if b.ctl.mode = .idle then s.par.telemPeriodIdle else s.par.telemPeriodMove
    let obstacle : Bool := decide ((p.ctl.mode = .forward ∨ p.ctl.mode = .barcodeApproach) ∧
      s.snap.distance.toInt < s.par.obstacleCm * 65536)
    let due : Bool := decide (period ≤ s.ctl.telemCounter.toNat + 1)
    let fails : Nat := if due then min lockFail.toNat s.par.telemRetryMax else 0
    let lost : Bool := due && decide (lockFail.toNat < s.par.telemRetryMax ∧ s.par.telemDepth ≤ s.telemQ.length)
    errorClasses (.ctick lockFail) s =
      (if obstacle then [.e4] else []) ++ List.replicate fails .e5 ++ (if lost then [.e3] else []) ∧
    ∃ t, exec (.ctick lockFail) s = .next t ∧
      t.actOut = b.actOut ++ List.replicate fails .stop ∧
      (obstacle → t.ctl.targetTicks = 0) ∧ (lost → t.telemQ = s.telemQ)) ∧
  (∀ (t : Time) (s u : State), exec (.pedgeF t) s = .next u →
    (¬ (s.bc.state = .accumulating ∧ s.bc.edgeCount.val = 8) → errorClasses (.pedgeF t) s = []) ∧
    (errorClasses (.pedgeF t) s = [] ∨
     (errorClasses (.pedgeF t) s = [.e2] ∧ u.telemQ = s.telemQ ++ [.diag 0x01]) ∨
     (errorClasses (.pedgeF t) s = [.e2, .e3] ∧ u.telemQ = s.telemQ) ∨
     (errorClasses (.pedgeF t) s = [.e3] ∧ u.telemQ = s.telemQ)))

/-- R106, R105: the pseudo-instructions are the words of their expansions, target first. -/
def Obligations.PseudoInstructionsExpand : Prop :=
  ∀ (m : ModeChars) (n : BitVec 32),
    (pseudoMove m n.toInt).map TraceLine.word =
      [eventWord 0x05 0 (0#16 ++ encodeCommand m (.setticks n)), eventWord 0x05 0 (0#16 ++ encodeCommand m .setmodeFwd)] ∧
    (pseudoApproach m n.toInt).map TraceLine.word =
      [eventWord 0x05 0 (0#16 ++ encodeCommand m (.setticks n)), eventWord 0x05 0 (0#16 ++ encodeCommand m .setmodeBa)] ∧
    (pseudoRotate m n.toInt).map TraceLine.word =
      [eventWord 0x05 0 (0#16 ++ encodeCommand m (.setbear n)), eventWord 0x05 0 (0#16 ++ encodeCommand m .setmodeTurn)] ∧
    (pseudoHalt m).map TraceLine.word = [eventWord 0x05 0 (0#16 ++ encodeCommand m .setmodeIdle)]
end

