-- ==== Sys2Proof/Laws/State.lean ====
section
/-! SUPPORT. One lemma for each field and each named update of the state: what the update writes, and what it leaves. No proof
needs to unfold an update. -/

namespace Sys2Proof.Machine

variable (s : State)

/-! ## `pushCmd` -/

@[simp] theorem State.pushCmd_enc (c : CommandWord) : (s.pushCmd c).enc = s.enc := rfl
@[simp] theorem State.pushCmd_ctl (c : CommandWord) : (s.pushCmd c).ctl = s.ctl := rfl
@[simp] theorem State.pushCmd_snap (c : CommandWord) : (s.pushCmd c).snap = s.snap := rfl
@[simp] theorem State.pushCmd_bc (c : CommandWord) : (s.pushCmd c).bc = s.bc := rfl
@[simp] theorem State.pushCmd_cmdQ (c : CommandWord) : (s.pushCmd c).cmdQ = pushBounded s.par.cmdDepth s.cmdQ c := rfl
@[simp] theorem State.pushCmd_telemQ (c : CommandWord) : (s.pushCmd c).telemQ = s.telemQ := rfl
@[simp] theorem State.pushCmd_par (c : CommandWord) : (s.pushCmd c).par = s.par := rfl
@[simp] theorem State.pushCmd_inbox (c : CommandWord) : (s.pushCmd c).inbox = s.inbox := rfl
@[simp] theorem State.pushCmd_actOut (c : CommandWord) : (s.pushCmd c).actOut = s.actOut := rfl
@[simp] theorem State.pushCmd_telemOut (c : CommandWord) : (s.pushCmd c).telemOut = s.telemOut := rfl
@[simp] theorem State.pushCmd_draws (c : CommandWord) : (s.pushCmd c).draws = s.draws := rfl

/-! ## `pushTelem` -/

@[simp] theorem State.pushTelem_enc (r : Record) : (s.pushTelem r).enc = s.enc := rfl
@[simp] theorem State.pushTelem_ctl (r : Record) : (s.pushTelem r).ctl = s.ctl := rfl
@[simp] theorem State.pushTelem_snap (r : Record) : (s.pushTelem r).snap = s.snap := rfl
@[simp] theorem State.pushTelem_bc (r : Record) : (s.pushTelem r).bc = s.bc := rfl
@[simp] theorem State.pushTelem_cmdQ (r : Record) : (s.pushTelem r).cmdQ = s.cmdQ := rfl
@[simp] theorem State.pushTelem_telemQ (r : Record) : (s.pushTelem r).telemQ = pushBounded s.par.telemDepth s.telemQ r := rfl
@[simp] theorem State.pushTelem_par (r : Record) : (s.pushTelem r).par = s.par := rfl
@[simp] theorem State.pushTelem_inbox (r : Record) : (s.pushTelem r).inbox = s.inbox := rfl
@[simp] theorem State.pushTelem_actOut (r : Record) : (s.pushTelem r).actOut = s.actOut := rfl
@[simp] theorem State.pushTelem_telemOut (r : Record) : (s.pushTelem r).telemOut = s.telemOut := rfl
@[simp] theorem State.pushTelem_draws (r : Record) : (s.pushTelem r).draws = s.draws := rfl

/-! ## `emitAll` -/

@[simp] theorem State.emitAll_enc (ws : List Actuation) : (s.emitAll ws).enc = s.enc := rfl
@[simp] theorem State.emitAll_ctl (ws : List Actuation) : (s.emitAll ws).ctl = s.ctl := rfl
@[simp] theorem State.emitAll_snap (ws : List Actuation) : (s.emitAll ws).snap = s.snap := rfl
@[simp] theorem State.emitAll_bc (ws : List Actuation) : (s.emitAll ws).bc = s.bc := rfl
@[simp] theorem State.emitAll_cmdQ (ws : List Actuation) : (s.emitAll ws).cmdQ = s.cmdQ := rfl
@[simp] theorem State.emitAll_telemQ (ws : List Actuation) : (s.emitAll ws).telemQ = s.telemQ := rfl
@[simp] theorem State.emitAll_par (ws : List Actuation) : (s.emitAll ws).par = s.par := rfl
@[simp] theorem State.emitAll_inbox (ws : List Actuation) : (s.emitAll ws).inbox = s.inbox := rfl
@[simp] theorem State.emitAll_actOut (ws : List Actuation) : (s.emitAll ws).actOut = s.actOut ++ ws := rfl
@[simp] theorem State.emitAll_telemOut (ws : List Actuation) : (s.emitAll ws).telemOut = s.telemOut := rfl
@[simp] theorem State.emitAll_draws (ws : List Actuation) : (s.emitAll ws).draws = s.draws := rfl

/-! ## `emit` -/

@[simp] theorem State.emit_enc (w : Actuation) : (s.emit w).enc = s.enc := rfl
@[simp] theorem State.emit_ctl (w : Actuation) : (s.emit w).ctl = s.ctl := rfl
@[simp] theorem State.emit_snap (w : Actuation) : (s.emit w).snap = s.snap := rfl
@[simp] theorem State.emit_bc (w : Actuation) : (s.emit w).bc = s.bc := rfl
@[simp] theorem State.emit_cmdQ (w : Actuation) : (s.emit w).cmdQ = s.cmdQ := rfl
@[simp] theorem State.emit_telemQ (w : Actuation) : (s.emit w).telemQ = s.telemQ := rfl
@[simp] theorem State.emit_par (w : Actuation) : (s.emit w).par = s.par := rfl
@[simp] theorem State.emit_inbox (w : Actuation) : (s.emit w).inbox = s.inbox := rfl
@[simp] theorem State.emit_actOut (w : Actuation) : (s.emit w).actOut = s.actOut ++ [w] := rfl
@[simp] theorem State.emit_telemOut (w : Actuation) : (s.emit w).telemOut = s.telemOut := rfl
@[simp] theorem State.emit_draws (w : Actuation) : (s.emit w).draws = s.draws := rfl

/-! ## `enter` -/

@[simp] theorem State.enter_enc (m : Mode) : (s.enter m).enc = s.enc := rfl
@[simp] theorem State.enter_ctl_mode (m : Mode) : (s.enter m).ctl.mode = m := rfl
@[simp] theorem State.enter_ctl_targetTicks (m : Mode) : (s.enter m).ctl.targetTicks = s.ctl.targetTicks := rfl
@[simp] theorem State.enter_ctl_targetBearing (m : Mode) : (s.enter m).ctl.targetBearing = s.ctl.targetBearing := rfl
@[simp] theorem State.enter_ctl_lastError (m : Mode) : (s.enter m).ctl.lastError = 0 := rfl
@[simp] theorem State.enter_ctl_errSum (m : Mode) : (s.enter m).ctl.errSum = 0 := rfl
@[simp] theorem State.enter_ctl_steadyCounter (m : Mode) : (s.enter m).ctl.steadyCounter = 0 := rfl
@[simp] theorem State.enter_ctl_gains (m : Mode) : (s.enter m).ctl.gains = s.ctl.gains := rfl
@[simp] theorem State.enter_ctl_ctrl (m : Mode) : (s.enter m).ctl.ctrl = 0 := rfl
@[simp] theorem State.enter_ctl_speed (m : Mode) : (s.enter m).ctl.speed = 0 := rfl
@[simp] theorem State.enter_ctl_telemCounter (m : Mode) : (s.enter m).ctl.telemCounter = s.ctl.telemCounter := rfl
@[simp] theorem State.enter_snap (m : Mode) : (s.enter m).snap = s.snap := rfl
@[simp] theorem State.enter_bc (m : Mode) : (s.enter m).bc = s.bc := rfl
@[simp] theorem State.enter_cmdQ (m : Mode) : (s.enter m).cmdQ = s.cmdQ := rfl
@[simp] theorem State.enter_telemQ (m : Mode) : (s.enter m).telemQ = s.telemQ := rfl
@[simp] theorem State.enter_par (m : Mode) : (s.enter m).par = s.par := rfl
@[simp] theorem State.enter_inbox (m : Mode) : (s.enter m).inbox = s.inbox := rfl
@[simp] theorem State.enter_actOut (m : Mode) : (s.enter m).actOut = s.actOut := rfl
@[simp] theorem State.enter_telemOut (m : Mode) : (s.enter m).telemOut = s.telemOut := rfl
@[simp] theorem State.enter_draws (m : Mode) : (s.enter m).draws = s.draws := rfl

/-! ## `setTarget` -/

@[simp] theorem State.setTarget_enc (n : BitVec 64) : (s.setTarget n).enc = s.enc := rfl
@[simp] theorem State.setTarget_ctl_mode (n : BitVec 64) : (s.setTarget n).ctl.mode = s.ctl.mode := rfl
@[simp] theorem State.setTarget_ctl_targetTicks (n : BitVec 64) : (s.setTarget n).ctl.targetTicks = n := rfl
@[simp] theorem State.setTarget_ctl_targetBearing (n : BitVec 64) : (s.setTarget n).ctl.targetBearing = s.ctl.targetBearing := rfl
@[simp] theorem State.setTarget_ctl_lastError (n : BitVec 64) : (s.setTarget n).ctl.lastError = s.ctl.lastError := rfl
@[simp] theorem State.setTarget_ctl_errSum (n : BitVec 64) : (s.setTarget n).ctl.errSum = s.ctl.errSum := rfl
@[simp] theorem State.setTarget_ctl_steadyCounter (n : BitVec 64) : (s.setTarget n).ctl.steadyCounter = s.ctl.steadyCounter := rfl
@[simp] theorem State.setTarget_ctl_gains (n : BitVec 64) : (s.setTarget n).ctl.gains = s.ctl.gains := rfl
@[simp] theorem State.setTarget_ctl_ctrl (n : BitVec 64) : (s.setTarget n).ctl.ctrl = s.ctl.ctrl := rfl
@[simp] theorem State.setTarget_ctl_speed (n : BitVec 64) : (s.setTarget n).ctl.speed = s.ctl.speed := rfl
@[simp] theorem State.setTarget_ctl_telemCounter (n : BitVec 64) : (s.setTarget n).ctl.telemCounter = s.ctl.telemCounter := rfl
@[simp] theorem State.setTarget_snap (n : BitVec 64) : (s.setTarget n).snap = s.snap := rfl
@[simp] theorem State.setTarget_bc (n : BitVec 64) : (s.setTarget n).bc = s.bc := rfl
@[simp] theorem State.setTarget_cmdQ (n : BitVec 64) : (s.setTarget n).cmdQ = s.cmdQ := rfl
@[simp] theorem State.setTarget_telemQ (n : BitVec 64) : (s.setTarget n).telemQ = s.telemQ := rfl
@[simp] theorem State.setTarget_par (n : BitVec 64) : (s.setTarget n).par = s.par := rfl
@[simp] theorem State.setTarget_inbox (n : BitVec 64) : (s.setTarget n).inbox = s.inbox := rfl
@[simp] theorem State.setTarget_actOut (n : BitVec 64) : (s.setTarget n).actOut = s.actOut := rfl
@[simp] theorem State.setTarget_telemOut (n : BitVec 64) : (s.setTarget n).telemOut = s.telemOut := rfl
@[simp] theorem State.setTarget_draws (n : BitVec 64) : (s.setTarget n).draws = s.draws := rfl

/-! ## `setBearing` -/

@[simp] theorem State.setBearing_enc (n : BitVec 16) : (s.setBearing n).enc = s.enc := rfl
@[simp] theorem State.setBearing_ctl_mode (n : BitVec 16) : (s.setBearing n).ctl.mode = s.ctl.mode := rfl
@[simp] theorem State.setBearing_ctl_targetTicks (n : BitVec 16) : (s.setBearing n).ctl.targetTicks = s.ctl.targetTicks := rfl
@[simp] theorem State.setBearing_ctl_targetBearing (n : BitVec 16) : (s.setBearing n).ctl.targetBearing = n := rfl
@[simp] theorem State.setBearing_ctl_lastError (n : BitVec 16) : (s.setBearing n).ctl.lastError = s.ctl.lastError := rfl
@[simp] theorem State.setBearing_ctl_errSum (n : BitVec 16) : (s.setBearing n).ctl.errSum = s.ctl.errSum := rfl
@[simp] theorem State.setBearing_ctl_steadyCounter (n : BitVec 16) : (s.setBearing n).ctl.steadyCounter = s.ctl.steadyCounter := rfl
@[simp] theorem State.setBearing_ctl_gains (n : BitVec 16) : (s.setBearing n).ctl.gains = s.ctl.gains := rfl
@[simp] theorem State.setBearing_ctl_ctrl (n : BitVec 16) : (s.setBearing n).ctl.ctrl = s.ctl.ctrl := rfl
@[simp] theorem State.setBearing_ctl_speed (n : BitVec 16) : (s.setBearing n).ctl.speed = s.ctl.speed := rfl
@[simp] theorem State.setBearing_ctl_telemCounter (n : BitVec 16) : (s.setBearing n).ctl.telemCounter = s.ctl.telemCounter := rfl
@[simp] theorem State.setBearing_snap (n : BitVec 16) : (s.setBearing n).snap = s.snap := rfl
@[simp] theorem State.setBearing_bc (n : BitVec 16) : (s.setBearing n).bc = s.bc := rfl
@[simp] theorem State.setBearing_cmdQ (n : BitVec 16) : (s.setBearing n).cmdQ = s.cmdQ := rfl
@[simp] theorem State.setBearing_telemQ (n : BitVec 16) : (s.setBearing n).telemQ = s.telemQ := rfl
@[simp] theorem State.setBearing_par (n : BitVec 16) : (s.setBearing n).par = s.par := rfl
@[simp] theorem State.setBearing_inbox (n : BitVec 16) : (s.setBearing n).inbox = s.inbox := rfl
@[simp] theorem State.setBearing_actOut (n : BitVec 16) : (s.setBearing n).actOut = s.actOut := rfl
@[simp] theorem State.setBearing_telemOut (n : BitVec 16) : (s.setBearing n).telemOut = s.telemOut := rfl
@[simp] theorem State.setBearing_draws (n : BitVec 16) : (s.setBearing n).draws = s.draws := rfl

/-! ## `setSteady` -/

@[simp] theorem State.setSteady_enc (n : Nat) : (s.setSteady n).enc = s.enc := rfl
@[simp] theorem State.setSteady_ctl_mode (n : Nat) : (s.setSteady n).ctl.mode = s.ctl.mode := rfl
@[simp] theorem State.setSteady_ctl_targetTicks (n : Nat) : (s.setSteady n).ctl.targetTicks = s.ctl.targetTicks := rfl
@[simp] theorem State.setSteady_ctl_targetBearing (n : Nat) : (s.setSteady n).ctl.targetBearing = s.ctl.targetBearing := rfl
@[simp] theorem State.setSteady_ctl_lastError (n : Nat) : (s.setSteady n).ctl.lastError = s.ctl.lastError := rfl
@[simp] theorem State.setSteady_ctl_errSum (n : Nat) : (s.setSteady n).ctl.errSum = s.ctl.errSum := rfl
@[simp] theorem State.setSteady_ctl_steadyCounter (n : Nat) : (s.setSteady n).ctl.steadyCounter = BitVec.ofNat 16 n := rfl
@[simp] theorem State.setSteady_ctl_gains (n : Nat) : (s.setSteady n).ctl.gains = s.ctl.gains := rfl
@[simp] theorem State.setSteady_ctl_ctrl (n : Nat) : (s.setSteady n).ctl.ctrl = s.ctl.ctrl := rfl
@[simp] theorem State.setSteady_ctl_speed (n : Nat) : (s.setSteady n).ctl.speed = s.ctl.speed := rfl
@[simp] theorem State.setSteady_ctl_telemCounter (n : Nat) : (s.setSteady n).ctl.telemCounter = s.ctl.telemCounter := rfl
@[simp] theorem State.setSteady_snap (n : Nat) : (s.setSteady n).snap = s.snap := rfl
@[simp] theorem State.setSteady_bc (n : Nat) : (s.setSteady n).bc = s.bc := rfl
@[simp] theorem State.setSteady_cmdQ (n : Nat) : (s.setSteady n).cmdQ = s.cmdQ := rfl
@[simp] theorem State.setSteady_telemQ (n : Nat) : (s.setSteady n).telemQ = s.telemQ := rfl
@[simp] theorem State.setSteady_par (n : Nat) : (s.setSteady n).par = s.par := rfl
@[simp] theorem State.setSteady_inbox (n : Nat) : (s.setSteady n).inbox = s.inbox := rfl
@[simp] theorem State.setSteady_actOut (n : Nat) : (s.setSteady n).actOut = s.actOut := rfl
@[simp] theorem State.setSteady_telemOut (n : Nat) : (s.setSteady n).telemOut = s.telemOut := rfl
@[simp] theorem State.setSteady_draws (n : Nat) : (s.setSteady n).draws = s.draws := rfl

/-! ## `setSpeed` -/

@[simp] theorem State.setSpeed_enc (n : Nat) : (s.setSpeed n).enc = s.enc := rfl
@[simp] theorem State.setSpeed_ctl_mode (n : Nat) : (s.setSpeed n).ctl.mode = s.ctl.mode := rfl
@[simp] theorem State.setSpeed_ctl_targetTicks (n : Nat) : (s.setSpeed n).ctl.targetTicks = s.ctl.targetTicks := rfl
@[simp] theorem State.setSpeed_ctl_targetBearing (n : Nat) : (s.setSpeed n).ctl.targetBearing = s.ctl.targetBearing := rfl
@[simp] theorem State.setSpeed_ctl_lastError (n : Nat) : (s.setSpeed n).ctl.lastError = s.ctl.lastError := rfl
@[simp] theorem State.setSpeed_ctl_errSum (n : Nat) : (s.setSpeed n).ctl.errSum = s.ctl.errSum := rfl
@[simp] theorem State.setSpeed_ctl_steadyCounter (n : Nat) : (s.setSpeed n).ctl.steadyCounter = s.ctl.steadyCounter := rfl
@[simp] theorem State.setSpeed_ctl_gains (n : Nat) : (s.setSpeed n).ctl.gains = s.ctl.gains := rfl
@[simp] theorem State.setSpeed_ctl_ctrl (n : Nat) : (s.setSpeed n).ctl.ctrl = s.ctl.ctrl := rfl
@[simp] theorem State.setSpeed_ctl_speed (n : Nat) : (s.setSpeed n).ctl.speed = BitVec.ofNat 16 n := rfl
@[simp] theorem State.setSpeed_ctl_telemCounter (n : Nat) : (s.setSpeed n).ctl.telemCounter = s.ctl.telemCounter := rfl
@[simp] theorem State.setSpeed_snap (n : Nat) : (s.setSpeed n).snap = s.snap := rfl
@[simp] theorem State.setSpeed_bc (n : Nat) : (s.setSpeed n).bc = s.bc := rfl
@[simp] theorem State.setSpeed_cmdQ (n : Nat) : (s.setSpeed n).cmdQ = s.cmdQ := rfl
@[simp] theorem State.setSpeed_telemQ (n : Nat) : (s.setSpeed n).telemQ = s.telemQ := rfl
@[simp] theorem State.setSpeed_par (n : Nat) : (s.setSpeed n).par = s.par := rfl
@[simp] theorem State.setSpeed_inbox (n : Nat) : (s.setSpeed n).inbox = s.inbox := rfl
@[simp] theorem State.setSpeed_actOut (n : Nat) : (s.setSpeed n).actOut = s.actOut := rfl
@[simp] theorem State.setSpeed_telemOut (n : Nat) : (s.setSpeed n).telemOut = s.telemOut := rfl
@[simp] theorem State.setSpeed_draws (n : Nat) : (s.setSpeed n).draws = s.draws := rfl

/-! ## `setTelemCounter` -/

@[simp] theorem State.setTelemCounter_enc (n : Nat) : (s.setTelemCounter n).enc = s.enc := rfl
@[simp] theorem State.setTelemCounter_ctl_mode (n : Nat) : (s.setTelemCounter n).ctl.mode = s.ctl.mode := rfl
@[simp] theorem State.setTelemCounter_ctl_targetTicks (n : Nat) : (s.setTelemCounter n).ctl.targetTicks = s.ctl.targetTicks := rfl
@[simp] theorem State.setTelemCounter_ctl_targetBearing (n : Nat) : (s.setTelemCounter n).ctl.targetBearing = s.ctl.targetBearing := rfl
@[simp] theorem State.setTelemCounter_ctl_lastError (n : Nat) : (s.setTelemCounter n).ctl.lastError = s.ctl.lastError := rfl
@[simp] theorem State.setTelemCounter_ctl_errSum (n : Nat) : (s.setTelemCounter n).ctl.errSum = s.ctl.errSum := rfl
@[simp] theorem State.setTelemCounter_ctl_steadyCounter (n : Nat) : (s.setTelemCounter n).ctl.steadyCounter = s.ctl.steadyCounter := rfl
@[simp] theorem State.setTelemCounter_ctl_gains (n : Nat) : (s.setTelemCounter n).ctl.gains = s.ctl.gains := rfl
@[simp] theorem State.setTelemCounter_ctl_ctrl (n : Nat) : (s.setTelemCounter n).ctl.ctrl = s.ctl.ctrl := rfl
@[simp] theorem State.setTelemCounter_ctl_speed (n : Nat) : (s.setTelemCounter n).ctl.speed = s.ctl.speed := rfl
@[simp] theorem State.setTelemCounter_ctl_telemCounter (n : Nat) : (s.setTelemCounter n).ctl.telemCounter = BitVec.ofNat 16 n := rfl
@[simp] theorem State.setTelemCounter_snap (n : Nat) : (s.setTelemCounter n).snap = s.snap := rfl
@[simp] theorem State.setTelemCounter_bc (n : Nat) : (s.setTelemCounter n).bc = s.bc := rfl
@[simp] theorem State.setTelemCounter_cmdQ (n : Nat) : (s.setTelemCounter n).cmdQ = s.cmdQ := rfl
@[simp] theorem State.setTelemCounter_telemQ (n : Nat) : (s.setTelemCounter n).telemQ = s.telemQ := rfl
@[simp] theorem State.setTelemCounter_par (n : Nat) : (s.setTelemCounter n).par = s.par := rfl
@[simp] theorem State.setTelemCounter_inbox (n : Nat) : (s.setTelemCounter n).inbox = s.inbox := rfl
@[simp] theorem State.setTelemCounter_actOut (n : Nat) : (s.setTelemCounter n).actOut = s.actOut := rfl
@[simp] theorem State.setTelemCounter_telemOut (n : Nat) : (s.setTelemCounter n).telemOut = s.telemOut := rfl
@[simp] theorem State.setTelemCounter_draws (n : Nat) : (s.setTelemCounter n).draws = s.draws := rfl

/-! ## `storeLaw` -/

@[simp] theorem State.storeLaw_enc (c e : Int) : (s.storeLaw c e).enc = s.enc := rfl
@[simp] theorem State.storeLaw_ctl_mode (c e : Int) : (s.storeLaw c e).ctl.mode = s.ctl.mode := rfl
@[simp] theorem State.storeLaw_ctl_targetTicks (c e : Int) : (s.storeLaw c e).ctl.targetTicks = s.ctl.targetTicks := rfl
@[simp] theorem State.storeLaw_ctl_targetBearing (c e : Int) : (s.storeLaw c e).ctl.targetBearing = s.ctl.targetBearing := rfl
@[simp] theorem State.storeLaw_ctl_lastError (c e : Int) : (s.storeLaw c e).ctl.lastError = BitVec.ofInt 66 e := rfl
@[simp] theorem State.storeLaw_ctl_errSum (c e : Int) : (s.storeLaw c e).ctl.errSum = s.ctl.errSum := rfl
@[simp] theorem State.storeLaw_ctl_steadyCounter (c e : Int) : (s.storeLaw c e).ctl.steadyCounter = s.ctl.steadyCounter := rfl
@[simp] theorem State.storeLaw_ctl_gains (c e : Int) : (s.storeLaw c e).ctl.gains = s.ctl.gains := rfl
@[simp] theorem State.storeLaw_ctl_ctrl (c e : Int) : (s.storeLaw c e).ctl.ctrl = BitVec.ofInt 32 c := rfl
@[simp] theorem State.storeLaw_ctl_speed (c e : Int) : (s.storeLaw c e).ctl.speed = s.ctl.speed := rfl
@[simp] theorem State.storeLaw_ctl_telemCounter (c e : Int) : (s.storeLaw c e).ctl.telemCounter = s.ctl.telemCounter := rfl
@[simp] theorem State.storeLaw_snap (c e : Int) : (s.storeLaw c e).snap = s.snap := rfl
@[simp] theorem State.storeLaw_bc (c e : Int) : (s.storeLaw c e).bc = s.bc := rfl
@[simp] theorem State.storeLaw_cmdQ (c e : Int) : (s.storeLaw c e).cmdQ = s.cmdQ := rfl
@[simp] theorem State.storeLaw_telemQ (c e : Int) : (s.storeLaw c e).telemQ = s.telemQ := rfl
@[simp] theorem State.storeLaw_par (c e : Int) : (s.storeLaw c e).par = s.par := rfl
@[simp] theorem State.storeLaw_inbox (c e : Int) : (s.storeLaw c e).inbox = s.inbox := rfl
@[simp] theorem State.storeLaw_actOut (c e : Int) : (s.storeLaw c e).actOut = s.actOut := rfl
@[simp] theorem State.storeLaw_telemOut (c e : Int) : (s.storeLaw c e).telemOut = s.telemOut := rfl
@[simp] theorem State.storeLaw_draws (c e : Int) : (s.storeLaw c e).draws = s.draws := rfl

/-! ## `setErrSum` -/

@[simp] theorem State.setErrSum_enc (n : Int) : (s.setErrSum n).enc = s.enc := rfl
@[simp] theorem State.setErrSum_ctl_mode (n : Int) : (s.setErrSum n).ctl.mode = s.ctl.mode := rfl
@[simp] theorem State.setErrSum_ctl_targetTicks (n : Int) : (s.setErrSum n).ctl.targetTicks = s.ctl.targetTicks := rfl
@[simp] theorem State.setErrSum_ctl_targetBearing (n : Int) : (s.setErrSum n).ctl.targetBearing = s.ctl.targetBearing := rfl
@[simp] theorem State.setErrSum_ctl_lastError (n : Int) : (s.setErrSum n).ctl.lastError = s.ctl.lastError := rfl
@[simp] theorem State.setErrSum_ctl_errSum (n : Int) : (s.setErrSum n).ctl.errSum = BitVec.ofInt 64 n := rfl
@[simp] theorem State.setErrSum_ctl_steadyCounter (n : Int) : (s.setErrSum n).ctl.steadyCounter = s.ctl.steadyCounter := rfl
@[simp] theorem State.setErrSum_ctl_gains (n : Int) : (s.setErrSum n).ctl.gains = s.ctl.gains := rfl
@[simp] theorem State.setErrSum_ctl_ctrl (n : Int) : (s.setErrSum n).ctl.ctrl = s.ctl.ctrl := rfl
@[simp] theorem State.setErrSum_ctl_speed (n : Int) : (s.setErrSum n).ctl.speed = s.ctl.speed := rfl
@[simp] theorem State.setErrSum_ctl_telemCounter (n : Int) : (s.setErrSum n).ctl.telemCounter = s.ctl.telemCounter := rfl
@[simp] theorem State.setErrSum_snap (n : Int) : (s.setErrSum n).snap = s.snap := rfl
@[simp] theorem State.setErrSum_bc (n : Int) : (s.setErrSum n).bc = s.bc := rfl
@[simp] theorem State.setErrSum_cmdQ (n : Int) : (s.setErrSum n).cmdQ = s.cmdQ := rfl
@[simp] theorem State.setErrSum_telemQ (n : Int) : (s.setErrSum n).telemQ = s.telemQ := rfl
@[simp] theorem State.setErrSum_par (n : Int) : (s.setErrSum n).par = s.par := rfl
@[simp] theorem State.setErrSum_inbox (n : Int) : (s.setErrSum n).inbox = s.inbox := rfl
@[simp] theorem State.setErrSum_actOut (n : Int) : (s.setErrSum n).actOut = s.actOut := rfl
@[simp] theorem State.setErrSum_telemOut (n : Int) : (s.setErrSum n).telemOut = s.telemOut := rfl
@[simp] theorem State.setErrSum_draws (n : Int) : (s.setErrSum n).draws = s.draws := rfl

/-! ## `setGains` -/

@[simp] theorem State.setGains_enc (g : Gains) : (s.setGains g).enc = s.enc := rfl
@[simp] theorem State.setGains_ctl_mode (g : Gains) : (s.setGains g).ctl.mode = s.ctl.mode := rfl
@[simp] theorem State.setGains_ctl_targetTicks (g : Gains) : (s.setGains g).ctl.targetTicks = s.ctl.targetTicks := rfl
@[simp] theorem State.setGains_ctl_targetBearing (g : Gains) : (s.setGains g).ctl.targetBearing = s.ctl.targetBearing := rfl
@[simp] theorem State.setGains_ctl_lastError (g : Gains) : (s.setGains g).ctl.lastError = s.ctl.lastError := rfl
@[simp] theorem State.setGains_ctl_errSum (g : Gains) : (s.setGains g).ctl.errSum = s.ctl.errSum := rfl
@[simp] theorem State.setGains_ctl_steadyCounter (g : Gains) : (s.setGains g).ctl.steadyCounter = s.ctl.steadyCounter := rfl
@[simp] theorem State.setGains_ctl_gains (g : Gains) : (s.setGains g).ctl.gains = g := rfl
@[simp] theorem State.setGains_ctl_ctrl (g : Gains) : (s.setGains g).ctl.ctrl = s.ctl.ctrl := rfl
@[simp] theorem State.setGains_ctl_speed (g : Gains) : (s.setGains g).ctl.speed = s.ctl.speed := rfl
@[simp] theorem State.setGains_ctl_telemCounter (g : Gains) : (s.setGains g).ctl.telemCounter = s.ctl.telemCounter := rfl
@[simp] theorem State.setGains_snap (g : Gains) : (s.setGains g).snap = s.snap := rfl
@[simp] theorem State.setGains_bc (g : Gains) : (s.setGains g).bc = s.bc := rfl
@[simp] theorem State.setGains_cmdQ (g : Gains) : (s.setGains g).cmdQ = s.cmdQ := rfl
@[simp] theorem State.setGains_telemQ (g : Gains) : (s.setGains g).telemQ = s.telemQ := rfl
@[simp] theorem State.setGains_par (g : Gains) : (s.setGains g).par = s.par := rfl
@[simp] theorem State.setGains_inbox (g : Gains) : (s.setGains g).inbox = s.inbox := rfl
@[simp] theorem State.setGains_actOut (g : Gains) : (s.setGains g).actOut = s.actOut := rfl
@[simp] theorem State.setGains_telemOut (g : Gains) : (s.setGains g).telemOut = s.telemOut := rfl
@[simp] theorem State.setGains_draws (g : Gains) : (s.setGains g).draws = s.draws := rfl

/-! ## `setCounts` -/

@[simp] theorem State.setCounts_enc_leftTicks (l r : BitVec 64) : (s.setCounts l r).enc.leftTicks = l := rfl
@[simp] theorem State.setCounts_enc_rightTicks (l r : BitVec 64) : (s.setCounts l r).enc.rightTicks = r := rfl
@[simp] theorem State.setCounts_enc_lSeen (l r : BitVec 64) : (s.setCounts l r).enc.lSeen = s.enc.lSeen := rfl
@[simp] theorem State.setCounts_enc_rSeen (l r : BitVec 64) : (s.setCounts l r).enc.rSeen = s.enc.rSeen := rfl
@[simp] theorem State.setCounts_enc_lLastT (l r : BitVec 64) : (s.setCounts l r).enc.lLastT = s.enc.lLastT := rfl
@[simp] theorem State.setCounts_enc_rLastT (l r : BitVec 64) : (s.setCounts l r).enc.rLastT = s.enc.rLastT := rfl
@[simp] theorem State.setCounts_ctl (l r : BitVec 64) : (s.setCounts l r).ctl = s.ctl := rfl
@[simp] theorem State.setCounts_snap (l r : BitVec 64) : (s.setCounts l r).snap = s.snap := rfl
@[simp] theorem State.setCounts_bc (l r : BitVec 64) : (s.setCounts l r).bc = s.bc := rfl
@[simp] theorem State.setCounts_cmdQ (l r : BitVec 64) : (s.setCounts l r).cmdQ = s.cmdQ := rfl
@[simp] theorem State.setCounts_telemQ (l r : BitVec 64) : (s.setCounts l r).telemQ = s.telemQ := rfl
@[simp] theorem State.setCounts_par (l r : BitVec 64) : (s.setCounts l r).par = s.par := rfl
@[simp] theorem State.setCounts_inbox (l r : BitVec 64) : (s.setCounts l r).inbox = s.inbox := rfl
@[simp] theorem State.setCounts_actOut (l r : BitVec 64) : (s.setCounts l r).actOut = s.actOut := rfl
@[simp] theorem State.setCounts_telemOut (l r : BitVec 64) : (s.setCounts l r).telemOut = s.telemOut := rfl
@[simp] theorem State.setCounts_draws (l r : BitVec 64) : (s.setCounts l r).draws = s.draws := rfl

/-! ## `setBarcode` -/

@[simp] theorem State.setBarcode_enc (b : BarcodeRegs) : (s.setBarcode b).enc = s.enc := rfl
@[simp] theorem State.setBarcode_ctl (b : BarcodeRegs) : (s.setBarcode b).ctl = s.ctl := rfl
@[simp] theorem State.setBarcode_snap (b : BarcodeRegs) : (s.setBarcode b).snap = s.snap := rfl
@[simp] theorem State.setBarcode_bc (b : BarcodeRegs) : (s.setBarcode b).bc = b := rfl
@[simp] theorem State.setBarcode_cmdQ (b : BarcodeRegs) : (s.setBarcode b).cmdQ = s.cmdQ := rfl
@[simp] theorem State.setBarcode_telemQ (b : BarcodeRegs) : (s.setBarcode b).telemQ = s.telemQ := rfl
@[simp] theorem State.setBarcode_par (b : BarcodeRegs) : (s.setBarcode b).par = s.par := rfl
@[simp] theorem State.setBarcode_inbox (b : BarcodeRegs) : (s.setBarcode b).inbox = s.inbox := rfl
@[simp] theorem State.setBarcode_actOut (b : BarcodeRegs) : (s.setBarcode b).actOut = s.actOut := rfl
@[simp] theorem State.setBarcode_telemOut (b : BarcodeRegs) : (s.setBarcode b).telemOut = s.telemOut := rfl
@[simp] theorem State.setBarcode_draws (b : BarcodeRegs) : (s.setBarcode b).draws = s.draws := rfl

end Sys2Proof.Machine
end

