-- ==== Sys2Proof/Laws/Barcode.lean ====
section
/-! SUPPORT. What the operations of the barcode engine do to its registers (42_barcode.md), each field once. -/

namespace Sys2Proof.Machine

variable (b : BarcodeRegs)

/-! ## One interval more -/

theorem nextCount_val (h : b.edgeCount.val ≠ 8) : b.nextCount.val = b.edgeCount.val + 1 := by
  have := b.edgeCount.isLt
  simp only [BarcodeRegs.nextCount, Fin.val_ofNat]
  omega

/-- The seed writes the threshold pair, and only where it is due (R155, R156). -/
theorem seed_cases (policy : SeedPolicy) (w : Time) :
    ((b.threshValid = false ∨ (policy = .perSymbol ∧ b.edgeCount.val = 0)) ∧
      b.seed policy w = { b with threshold := BitVec.ofNat 65 (2 * w.toNat), threshValid := true }) ∨
    (b.threshValid = true ∧ ¬ (policy = .perSymbol ∧ b.edgeCount.val = 0) ∧ b.seed policy w = b) := by
  unfold BarcodeRegs.seed
  by_cases h : seedsThreshold policy b
  · exact .inl ⟨h, if_pos h⟩
  · refine .inr ⟨?_, fun hp => h (.inr hp), if_neg h⟩
    cases ht : b.threshValid
    · exact absurd (.inl ht) h
    · rfl

@[simp] theorem seed_threshValid (policy : SeedPolicy) (w : Time) : (b.seed policy w).threshValid = true := by
  rcases seed_cases b policy w with ⟨-, e⟩ | ⟨h, -, e⟩
  · rw [e]
  · rw [e, h]

@[simp] theorem seed_state (policy : SeedPolicy) (w : Time) : (b.seed policy w).state = b.state := by
  unfold BarcodeRegs.seed; split <;> rfl
@[simp] theorem seed_edgeCount (policy : SeedPolicy) (w : Time) : (b.seed policy w).edgeCount = b.edgeCount := by
  unfold BarcodeRegs.seed; split <;> rfl
@[simp] theorem seed_barW (policy : SeedPolicy) (w : Time) : (b.seed policy w).barW = b.barW := by
  unfold BarcodeRegs.seed; split <;> rfl
@[simp] theorem seed_spaceW (policy : SeedPolicy) (w : Time) : (b.seed policy w).spaceW = b.spaceW := by
  unfold BarcodeRegs.seed; split <;> rfl
@[simp] theorem seed_reversed (policy : SeedPolicy) (w : Time) : (b.seed policy w).reversed = b.reversed := by
  unfold BarcodeRegs.seed; split <;> rfl
@[simp] theorem seed_assembled (policy : SeedPolicy) (w : Time) : (b.seed policy w).assembled = b.assembled := by
  unfold BarcodeRegs.seed; split <;> rfl

@[simp] theorem recordBar_state (policy : SeedPolicy) (t : Time) : (b.recordBar policy t).state = b.state := seed_state ..
@[simp] theorem recordBar_edgeCount (policy : SeedPolicy) (t : Time) : (b.recordBar policy t).edgeCount = b.nextCount := rfl
@[simp] theorem recordBar_prevEdgeT (policy : SeedPolicy) (t : Time) : (b.recordBar policy t).prevEdgeT = t := rfl
@[simp] theorem recordBar_barW (policy : SeedPolicy) (t : Time) :
    (b.recordBar policy t).barW = b.barW.setIfInBounds (b.edgeCount.val / 2) (t - b.prevEdgeT) := rfl
@[simp] theorem recordBar_spaceW (policy : SeedPolicy) (t : Time) : (b.recordBar policy t).spaceW = b.spaceW := seed_spaceW ..
@[simp] theorem recordBar_threshValid (policy : SeedPolicy) (t : Time) : (b.recordBar policy t).threshValid = true :=
  seed_threshValid ..
@[simp] theorem recordBar_threshold (policy : SeedPolicy) (t : Time) :
    (b.recordBar policy t).threshold = (b.seed policy (t - b.prevEdgeT)).threshold := rfl
@[simp] theorem recordBar_reversed (policy : SeedPolicy) (t : Time) : (b.recordBar policy t).reversed = b.reversed :=
  seed_reversed ..
@[simp] theorem recordBar_assembled (policy : SeedPolicy) (t : Time) : (b.recordBar policy t).assembled = b.assembled :=
  seed_assembled ..

@[simp] theorem recordSpace_edgeCount (t : Time) : (b.recordSpace t).edgeCount = b.nextCount := rfl
@[simp] theorem recordSpace_spaceW (t : Time) :
    (b.recordSpace t).spaceW = b.spaceW.setIfInBounds (b.edgeCount.val / 2) (t - b.prevEdgeT) := rfl

/-! ## A complete symbol -/

/-- The four things a complete symbol can be, and with each the record and the scan registers that follow (R167, R168). -/
theorem classify_cases (assembledMax : Nat) :
    (b.assembled = [] ∧ b.normalChar = sentinel ∧ b.symbolRecord = none ∧
      b.applySymbol assembledMax = { b with reversed := false, assembled := [sentinel] }) ∨
    (b.assembled = [] ∧ b.normalChar ≠ sentinel ∧ b.reversedChar = sentinel ∧ b.symbolRecord = none ∧
      b.applySymbol assembledMax = { b with reversed := true, assembled := [sentinel] }) ∨
    (b.assembled = [] ∧ b.normalChar ≠ sentinel ∧ b.reversedChar ≠ sentinel ∧ b.symbolRecord = some (.diag 0x01) ∧
      b.applySymbol assembledMax = b) ∨
    (b.assembled ≠ [] ∧ (if b.reversed then b.reversedChar else b.normalChar) = sentinel ∧
      b.symbolRecord = some (.barcode (b.assembled.drop 1)) ∧
      b.applySymbol assembledMax = { b with reversed := false, assembled := [] }) ∨
    (∃ c, c = (if b.reversed then b.reversedChar else b.normalChar) ∧ b.assembled ≠ [] ∧ c ≠ sentinel ∧
      b.symbolRecord = none ∧
      b.applySymbol assembledMax =
        if b.asmLen < assembledMax then { b with assembled := b.assembled ++ [c] } else b) := by
  unfold BarcodeRegs.symbolRecord BarcodeRegs.applySymbol BarcodeRegs.classify
  by_cases ha : b.assembled = []
  · by_cases hn : b.normalChar = sentinel
    · exact .inl ⟨ha, hn, by simp only [if_pos ha, if_pos hn], by simp only [if_pos ha, if_pos hn]⟩
    · by_cases hr : b.reversedChar = sentinel
      · exact .inr (.inl ⟨ha, hn, hr, by simp only [if_pos ha, if_neg hn, if_pos hr],
          by simp only [if_pos ha, if_neg hn, if_pos hr]⟩)
      · exact .inr (.inr (.inl ⟨ha, hn, hr, by simp only [if_pos ha, if_neg hn, if_neg hr],
          by simp only [if_pos ha, if_neg hn, if_neg hr]⟩))
  · by_cases hc : (if b.reversed then b.reversedChar else b.normalChar) = sentinel
    · exact .inr (.inr (.inr (.inl ⟨ha, hc, by simp only [if_neg ha, if_pos hc], by simp only [if_neg ha, if_pos hc]⟩)))
    · exact .inr (.inr (.inr (.inr ⟨_, rfl, ha, hc, by simp only [if_neg ha, if_neg hc],
        by simp only [if_neg ha, if_neg hc]⟩)))

/-- The window is cleared, and the symbol's record, if any, pushed (R160, R169). -/
theorem completeSymbol_eq (s : State) :
    s.completeSymbol b =
      { s with
        bc := (b.applySymbol s.par.assembledMax).clearWindow
        telemQ := b.symbolRecord.elim s.telemQ (pushBounded s.par.telemDepth s.telemQ) } := by
  unfold State.completeSymbol State.pushTelem?
  cases b.symbolRecord <;> rfl

/-- Every character the tables give is in the alphabet (R162, R165). -/
theorem decodeSymbol_mem (bars spaces : List Bool) : decodeSymbol bars spaces ∈ alphabet := by
  unfold decodeSymbol
  rw [List.getD_eq_getElem?_getD]
  cases h : alphabet[symbolIndex bars spaces]? with
  | none => decide
  | some c => exact List.mem_of_getElem? h

end Sys2Proof.Machine
end

