-- ==== Sys2Proof/Laws/Frames.lean ====
section
/-! SUPPORT. What the steps of a control tick leave alone (10_state.md R20): the poll, the behaviour and the telemetry step, each
as one conjunction and then field by field for the simplifier. -/

namespace Sys2Proof.Machine

variable (s : State)

/-! ## The finer frames -/

theorem runCommand_frame (c : Command) :
    (runCommand c s).snap = s.snap ∧ (runCommand c s).bc = s.bc ∧ (runCommand c s).cmdQ = s.cmdQ ∧
    (runCommand c s).telemQ = s.telemQ ∧ (runCommand c s).par = s.par ∧ (runCommand c s).inbox = s.inbox ∧
    (runCommand c s).actOut = s.actOut ∧ (runCommand c s).telemOut = s.telemOut ∧ (runCommand c s).draws = s.draws ∧
    (runCommand c s).ctl.telemCounter = s.ctl.telemCounter := by
  cases c <;>
    simp only [runCommand, cmdSetmodeIdle, cmdSetmodeFwd, cmdSetmodeBa, cmdSetmodeTurn, cmdSetticks, cmdSetbear, cmdSetgain,
      cmdRstenc] <;>
    (repeat' split) <;> simp

theorem runCommand_debounce (c : Command) :
    (runCommand c s).enc.lSeen = s.enc.lSeen ∧ (runCommand c s).enc.rSeen = s.enc.rSeen ∧
    (runCommand c s).enc.lLastT = s.enc.lLastT ∧ (runCommand c s).enc.rLastT = s.enc.rLastT := by
  cases c <;>
    simp only [runCommand, cmdSetmodeIdle, cmdSetmodeFwd, cmdSetmodeBa, cmdSetmodeTurn, cmdSetticks, cmdSetbear, cmdSetgain,
      cmdRstenc] <;>
    (repeat' split) <;> simp

/-- What a poll does: nothing on an empty queue, the oldest word's removal and no more where it is reserved, and the rule of
the command it decodes to otherwise (43_commands.md R191). -/
theorem poll_cases :
    (s.cmdQ = [] ∧ poll s = s) ∨
    (∃ w rest, s.cmdQ = w :: rest ∧ (∃ e, decodeCommand s.par.modeChars w = .error e) ∧ poll s = { s with cmdQ := rest }) ∨
    (∃ w rest c, s.cmdQ = w :: rest ∧ decodeCommand s.par.modeChars w = .ok c ∧
      poll s = runCommand c { s with cmdQ := rest }) := by
  unfold poll
  cases h : s.cmdQ with
  | nil => exact .inl ⟨rfl, rfl⟩
  | cons w rest =>
    right
    simp only [runWord]
    cases hd : decodeCommand s.par.modeChars w with
    | ok c => exact .inr ⟨w, rest, c, rfl, hd, rfl⟩
    | error e => exact .inl ⟨w, rest, rfl, ⟨e, hd⟩, rfl⟩

theorem poll_frame :
    (poll s).snap = s.snap ∧ (poll s).bc = s.bc ∧ (poll s).cmdQ = s.cmdQ.tail ∧ (poll s).telemQ = s.telemQ ∧
    (poll s).par = s.par ∧ (poll s).inbox = s.inbox ∧ (poll s).actOut = s.actOut ∧ (poll s).telemOut = s.telemOut ∧
    (poll s).draws = s.draws ∧ (poll s).ctl.telemCounter = s.ctl.telemCounter := by
  rcases poll_cases s with ⟨h, e⟩ | ⟨w, rest, h, -, e⟩ | ⟨w, rest, c, h, -, e⟩
  · simp [e, h]
  · simp [e, h]
  · rw [e]; simp [runCommand_frame, h]

theorem poll_debounce :
    (poll s).enc.lSeen = s.enc.lSeen ∧ (poll s).enc.rSeen = s.enc.rSeen ∧
    (poll s).enc.lLastT = s.enc.lLastT ∧ (poll s).enc.rLastT = s.enc.rLastT := by
  rcases poll_cases s with ⟨h, e⟩ | ⟨w, rest, h, -, e⟩ | ⟨w, rest, c, h, -, e⟩
  · simp [e]
  · simp [e]
  · rw [e]; simp [runCommand_debounce]

/-- Step 3 writes the counts, the controller registers and the output stream, and nothing else. -/
theorem behave_frame :
    (behave s).snap = s.snap ∧ (behave s).bc = s.bc ∧ (behave s).cmdQ = s.cmdQ ∧ (behave s).telemQ = s.telemQ ∧
    (behave s).par = s.par ∧ (behave s).inbox = s.inbox ∧ (behave s).telemOut = s.telemOut ∧
    (behave s).draws = s.draws ∧ (behave s).ctl.telemCounter = s.ctl.telemCounter := by
  unfold behave
  split <;>
    simp only [idleTick, forwardTick, barcodeApproachTick, reverseTick, reverseTransitionTick, turnTick, capture,
      State.distanceTick, State.obstacleOverride, finishForward] <;>
    (repeat' split) <;> simp

theorem behave_debounce :
    (behave s).enc.lSeen = s.enc.lSeen ∧ (behave s).enc.rSeen = s.enc.rSeen ∧
    (behave s).enc.lLastT = s.enc.lLastT ∧ (behave s).enc.rLastT = s.enc.rLastT := by
  unfold behave
  split <;>
    simp only [idleTick, forwardTick, barcodeApproachTick, reverseTick, reverseTransitionTick, turnTick, capture,
      State.distanceTick, State.obstacleOverride, finishForward] <;>
    (repeat' split) <;> simp

/-- Step 4 writes `telem_counter`, the output stream and the Telemetry Channel, and nothing else. -/
theorem telemetryStep_frame (lockFail : Byte) :
    let t := telemetryStep lockFail s
    t.enc = s.enc ∧ t.snap = s.snap ∧ t.bc = s.bc ∧ t.cmdQ = s.cmdQ ∧ t.par = s.par ∧ t.inbox = s.inbox ∧
    t.telemOut = s.telemOut ∧ t.draws = s.draws ∧ t.ctl = { s.ctl with telemCounter := t.ctl.telemCounter } := by
  simp only [telemetryStep, sendStatus]
  (repeat' split) <;> simp [State.setTelemCounter, State.emitAll, State.pushTelem]

/-! ## The same, field by field -/

@[simp] theorem poll_snap : (poll s).snap = s.snap := (poll_frame s).1
@[simp] theorem poll_bc : (poll s).bc = s.bc := (poll_frame s).2.1
@[simp] theorem poll_cmdQ : (poll s).cmdQ = s.cmdQ.tail := (poll_frame s).2.2.1
@[simp] theorem poll_telemQ : (poll s).telemQ = s.telemQ := (poll_frame s).2.2.2.1
@[simp] theorem poll_par : (poll s).par = s.par := (poll_frame s).2.2.2.2.1
@[simp] theorem poll_inbox : (poll s).inbox = s.inbox := (poll_frame s).2.2.2.2.2.1
@[simp] theorem poll_actOut : (poll s).actOut = s.actOut := (poll_frame s).2.2.2.2.2.2.1
@[simp] theorem poll_telemOut : (poll s).telemOut = s.telemOut := (poll_frame s).2.2.2.2.2.2.2.1
@[simp] theorem poll_draws : (poll s).draws = s.draws := (poll_frame s).2.2.2.2.2.2.2.2.1
@[simp] theorem poll_ctl_telemCounter : (poll s).ctl.telemCounter = s.ctl.telemCounter := (poll_frame s).2.2.2.2.2.2.2.2.2
@[simp] theorem poll_enc_lSeen : (poll s).enc.lSeen = s.enc.lSeen := (poll_debounce s).1
@[simp] theorem poll_enc_rSeen : (poll s).enc.rSeen = s.enc.rSeen := (poll_debounce s).2.1
@[simp] theorem poll_enc_lLastT : (poll s).enc.lLastT = s.enc.lLastT := (poll_debounce s).2.2.1
@[simp] theorem poll_enc_rLastT : (poll s).enc.rLastT = s.enc.rLastT := (poll_debounce s).2.2.2

@[simp] theorem behave_snap : (behave s).snap = s.snap := (behave_frame s).1
@[simp] theorem behave_bc : (behave s).bc = s.bc := (behave_frame s).2.1
@[simp] theorem behave_cmdQ : (behave s).cmdQ = s.cmdQ := (behave_frame s).2.2.1
@[simp] theorem behave_telemQ : (behave s).telemQ = s.telemQ := (behave_frame s).2.2.2.1
@[simp] theorem behave_par : (behave s).par = s.par := (behave_frame s).2.2.2.2.1
@[simp] theorem behave_inbox : (behave s).inbox = s.inbox := (behave_frame s).2.2.2.2.2.1
@[simp] theorem behave_telemOut : (behave s).telemOut = s.telemOut := (behave_frame s).2.2.2.2.2.2.1
@[simp] theorem behave_draws : (behave s).draws = s.draws := (behave_frame s).2.2.2.2.2.2.2.1
@[simp] theorem behave_ctl_telemCounter : (behave s).ctl.telemCounter = s.ctl.telemCounter := (behave_frame s).2.2.2.2.2.2.2.2
@[simp] theorem behave_enc_lSeen : (behave s).enc.lSeen = s.enc.lSeen := (behave_debounce s).1
@[simp] theorem behave_enc_rSeen : (behave s).enc.rSeen = s.enc.rSeen := (behave_debounce s).2.1
@[simp] theorem behave_enc_lLastT : (behave s).enc.lLastT = s.enc.lLastT := (behave_debounce s).2.2.1
@[simp] theorem behave_enc_rLastT : (behave s).enc.rLastT = s.enc.rLastT := (behave_debounce s).2.2.2

end Sys2Proof.Machine
end

