-- ==== Sys2Proof/Laws/Ops.lean ====
section
/-! SUPPORT. What each shared operation can do, said once: the bounded queue, the distance law, the dwell, the capture, the Turn law,
the telemetry step and one step of the machine. Proofs cite these in place of the definitions. -/

namespace Sys2Proof.Machine

/-! ## The bounded queue (20_memory.md R63) -/

theorem pushBounded_cases {α : Type} (cap : Nat) (q : List α) (v : α) :
    (q.length < cap ∧ pushBounded cap q v = q ++ [v]) ∨ (cap ≤ q.length ∧ pushBounded cap q v = q) := by
  unfold pushBounded
  split
  · exact .inl ⟨‹_›, rfl⟩
  · exact .inr ⟨Nat.le_of_not_lt ‹_›, rfl⟩

theorem pushBounded_of_room {α : Type} {cap : Nat} {q : List α} (v : α) (h : q.length < cap) :
    pushBounded cap q v = q ++ [v] := if_pos h

theorem pushBounded_of_full {α : Type} {cap : Nat} {q : List α} (v : α) (h : cap ≤ q.length) :
    pushBounded cap q v = q := if_neg (Nat.not_lt.mpr h)

theorem pushBounded_length_le {α : Type} {cap : Nat} {q : List α} (v : α) (h : q.length ≤ cap) :
    (pushBounded cap q v).length ≤ cap := by
  rcases pushBounded_cases cap q v with ⟨h1, e⟩ | ⟨-, e⟩
  · rw [e, List.length_append]; exact h1
  · rwa [e]

/-! ## Arithmetic -/

theorem clamp_mem {x lo hi : Int} (h : lo ≤ hi) : lo ≤ clamp x lo hi ∧ clamp x lo hi ≤ hi := by
  simp only [clamp]; omega

/-- Increments of the 16-bit counters, as the stores write them. -/
theorem ofNat_toNat_succ (b : BitVec 16) : BitVec.ofNat 16 (b.toNat + 1) = b + 1 :=
  BitVec.eq_of_toNat_eq (by simp)

theorem scaledSpeed_le (s : State) {c : Int} (h : c.natAbs ≤ 65536) : s.scaledSpeed c ≤ s.par.speedMax := by
  unfold State.scaledSpeed
  have : c.natAbs * s.par.speedMax ≤ 65536 * s.par.speedMax := Nat.mul_le_mul_right _ h
  omega

/-- How many tilt words a correction makes, and of which kind (44_controller.md R239). -/
theorem tiltWords_cases (steer : Int) :
    (0 < steer ∧ tiltWords steer = List.replicate steer.toNat .tiltr) ∨
    (steer ≤ 0 ∧ tiltWords steer = List.replicate (-steer).toNat .tiltl) := by
  unfold tiltWords
  split
  · exact .inl ⟨‹_›, by congr 1; omega⟩
  · exact .inr ⟨by omega, by congr 1; omega⟩

/-- The wheel-difference correction is bounded by the cap (44_controller.md R237). -/
theorem wdSteer_natAbs_le (s : State) : s.wdSteer.natAbs ≤ s.par.tiltCap := by
  unfold State.wdSteer sign
  generalize hc : min (s.par.wdGain * (s.left - s.right).natAbs) s.par.tiltCap = calls
  have : calls ≤ s.par.tiltCap := hc ▸ Nat.min_le_right _ _
  split
  · omega
  · split <;> omega

/-- The line correction is bounded by its product (44_controller.md R238). -/
theorem lineSteer_natAbs_le (s : State) : s.lineSteer.natAbs ≤ s.par.lineCorrMult * s.par.wdGain := by
  unfold State.lineSteer
  split <;> split <;> simp <;> omega

/-! ## Step 3 of a control tick -/

/-- The obstacle override is one write of the target (44_controller.md R230). -/
theorem obstacleOverride_eq (s : State) :
    s.obstacleOverride =
      s.setTarget (if s.snap.distance.toInt < s.par.obstacleCm * 65536 then 0 else s.ctl.targetTicks) := by
  unfold State.obstacleOverride
  by_cases h : s.obstacle
  · rw [if_pos h, if_pos (show s.snap.distance.toInt < (s.par.obstacleCm : Int) * 65536 from h)]
  · rw [if_neg h, if_neg (show ¬ s.snap.distance.toInt < (s.par.obstacleCm : Int) * 65536 from h)]; rfl

/-- The four things a tick of a distance mode can do (44_controller.md R231, R232, R233, R243). -/
theorem distanceTick_cases (s : State) (dir : Actuation) (steer : Int) (finish : Int → State → State) :
    let e := s.distError
    let c := s.pdControl e
    let n := s.ctl.steadyCounter.toNat + 1
    let counted := (((s.storeLaw c e).setSpeed 0).setSteady n).emit .stop
    let v := s.scaledSpeed c
    (e ≤ s.par.tolTicks ∧ n < s.par.steadyWindow ∧ s.distanceTick dir steer finish = counted) ∨
    (e ≤ s.par.tolTicks ∧ s.par.steadyWindow ≤ n ∧ s.distanceTick dir steer finish = finish e counted) ∨
    ((s.par.tolTicks : Int) < e ∧ 0 < c ∧
      s.distanceTick dir steer finish =
        (((s.storeLaw c e).setSteady 0).setSpeed v).emitAll
          (dir :: .speed (BitVec.ofNat 16 v) :: tiltWords steer)) ∨
    ((s.par.tolTicks : Int) < e ∧ c ≤ 0 ∧
      s.distanceTick dir steer finish = (((s.storeLaw c e).setSteady 0).setSpeed 0).emit .stop) := by
  intro e c n counted v
  unfold State.distanceTick
  by_cases hz : s.inZone e
  · by_cases hw : s.windowFull n
    · exact .inr (.inl ⟨hz, hw, by simp only; rw [if_pos hz, if_pos hw]⟩)
    · exact .inl ⟨hz, Nat.lt_of_not_le hw, by simp only; rw [if_pos hz, if_neg hw]⟩
  · by_cases hc : 0 < c
    · exact .inr (.inr (.inl ⟨Int.lt_of_not_ge hz, hc, by simp only; rw [if_neg hz, if_pos hc]⟩))
    · exact .inr (.inr (.inr ⟨Int.lt_of_not_ge hz, Int.le_of_not_gt hc, by simp only; rw [if_neg hz, if_neg hc]⟩))

/-- What the end of a Forward or BarcodeApproach dwell enters (44_controller.md R233). -/
theorem finishForward_cases (e : Int) (s : State) :
    (e < -(s.par.tolTicks : Int) ∧ finishForward e s = s.enter .reverseTransition) ∨
    (-(s.par.tolTicks : Int) ≤ e ∧ finishForward e s = s.enter .idle) := by
  unfold finishForward
  split
  · exact .inl ⟨‹_›, rfl⟩
  · exact .inr ⟨Int.not_lt.mp ‹_›, rfl⟩

/-- The two things a ReverseTransition tick can do (44_controller.md R240). -/
theorem reverseTransitionTick_cases (s : State) :
    let n := s.ctl.steadyCounter.toNat + 1
    (n < s.par.rtDwellTicks ∧ reverseTransitionTick s = (s.emit .stop).setSteady n) ∨
    (s.par.rtDwellTicks ≤ n ∧ reverseTransitionTick s = capture ((s.emit .stop).setSteady n)) := by
  intro n
  unfold reverseTransitionTick
  by_cases h : s.par.rtDwellTicks ≤ n
  · exact .inr ⟨h, by simp only; rw [if_pos h]⟩
  · exact .inl ⟨Nat.lt_of_not_le h, by simp only; rw [if_neg h]⟩

/-- The two things a Turn tick can do (44_controller.md R245). -/
theorem turnTick_cases (s : State) :
    let e := s.turnError
    let c := s.pidControl e
    let v := s.scaledSpeed c
    let n := if s.settled e then s.ctl.steadyCounter.toNat + 1 else 0
    let law := ((((s.setErrSum (s.nextErrSum e)).storeLaw c e).setSpeed v).setSteady n)
    (s.par.steadyWindow ≤ n ∧ turnTick s = (law.emit .stop).enter .idle) ∨
    (n < s.par.steadyWindow ∧ turnTick s = law.emitAll [if 0 < c then .rcw else .rccw, .speed (BitVec.ofNat 16 v)]) := by
  intro e c v n law
  unfold turnTick
  by_cases h : s.windowFull n
  · exact .inl ⟨h, by simp only; rw [if_pos h]⟩
  · exact .inr ⟨Nat.lt_of_not_le h, by simp only; rw [if_neg h]⟩

/-! ## Step 4 of a control tick -/

/-- The three things step 4 can do (45_actuation_telemetry.md R289, R290). -/
theorem telemetryStep_cases (lockFail : Byte) (s : State) :
    let cleared := (s.setTelemCounter 0).emitAll (List.replicate (min lockFail.toNat s.par.telemRetryMax) .stop)
    (s.ctl.telemCounter.toNat + 1 < s.telemPeriod ∧
      telemetryStep lockFail s = s.setTelemCounter (s.ctl.telemCounter.toNat + 1)) ∨
    (s.telemPeriod ≤ s.ctl.telemCounter.toNat + 1 ∧ lockFail.toNat < s.par.telemRetryMax ∧
      telemetryStep lockFail s = cleared.pushTelem (.status (statusFields s))) ∨
    (s.telemPeriod ≤ s.ctl.telemCounter.toNat + 1 ∧ s.par.telemRetryMax ≤ lockFail.toNat ∧
      telemetryStep lockFail s = cleared) := by
  intro cleared
  unfold telemetryStep
  by_cases h : s.telemDue
  · rw [if_pos h]
    unfold sendStatus
    by_cases hl : lockFail.toNat < s.par.telemRetryMax
    · exact .inr (.inl ⟨h, hl, by simp only; rw [if_pos (show (s.setTelemCounter 0).lockTaken lockFail from hl)]; rfl⟩)
    · exact .inr (.inr ⟨h, Nat.le_of_not_lt hl, by simp only; rw [if_neg (show ¬ (s.setTelemCounter 0).lockTaken lockFail from hl)]; rfl⟩)
  · exact .inl ⟨Nat.lt_of_not_le h, if_neg h⟩

/-! ## One step -/

/-- What a step does: nothing with no word waiting; otherwise the oldest word goes, and the instruction it decodes to runs, or
its port deals with a word that is none. -/
theorem step_cases (s : State) :
    (s.inbox = [] ∧ step s = .next s) ∨
    (∃ w rest i, s.inbox = w :: rest ∧ decode s.par.modeChars w = .ok i ∧ step s = exec i { s with inbox := rest }) ∨
    (∃ w rest e, s.inbox = w :: rest ∧ decode s.par.modeChars w = .error e ∧
      step s = execReserved w { s with inbox := rest }) := by
  unfold step
  cases h : s.inbox with
  | nil => exact .inl ⟨rfl, rfl⟩
  | cons w rest =>
    right
    simp only [stepWord]
    cases hd : decode s.par.modeChars w with
    | ok i => exact .inl ⟨w, rest, i, rfl, hd, rfl⟩
    | error e => exact .inr ⟨w, rest, e, rfl, hd, rfl⟩

end Sys2Proof.Machine
end

