-- ==== Sys2Proof/Laws/PerInstr.lean ====
section
/-! SUPPORT. The statements made of each instruction as syntax: its word stands on the port of its format (30_encoding.md R91). -/

namespace Sys2Proof.Laws.EncodePort

/-- The word of `i` travels on the port of `i`'s format, whatever the mode characters. -/
def Statement (i : Instr) : Prop := ∀ chars : ModeChars, (encode chars i).format = i.format

theorem reset : Statement .reset := fun _ => rfl
theorem ledge (t : Time) : Statement (.ledge t) := fun _ => rfl
theorem redge (t : Time) : Statement (.redge t) := fun _ => rfl
theorem pedgeR (t : Time) : Statement (.pedgeR t) := fun _ => rfl
theorem pedgeF (t : Time) : Statement (.pedgeF t) := fun _ => rfl
theorem snap (a : SnapArgs) : Statement (.snap a) := fun _ => rfl
theorem cpush (c : CommandWord) : Statement (.cpush c) := fun _ => rfl
theorem ctick (lockFail : Byte) : Statement (.ctick lockFail) := fun _ => rfl
theorem tpop : Statement .tpop := fun _ => rfl
theorem setmodeIdle : Statement .setmodeIdle := fun _ => rfl
theorem setmodeFwd : Statement .setmodeFwd := fun _ => rfl
theorem setmodeBa : Statement .setmodeBa := fun _ => rfl
theorem setmodeTurn : Statement .setmodeTurn := fun _ => rfl
theorem setticks (n : BitVec 32) : Statement (.setticks n) := fun _ => rfl
theorem setbear (delta : BitVec 32) : Statement (.setbear delta) := fun _ => rfl
theorem setgain (sel : Byte) (value : Q16) : Statement (.setgain sel value) := fun _ => rfl
theorem rstenc : Statement .rstenc := fun _ => rfl
theorem fwd : Statement .fwd := fun _ => rfl
theorem bwd : Statement .bwd := fun _ => rfl
theorem rcw : Statement .rcw := fun _ => rfl
theorem rccw : Statement .rccw := fun _ => rfl
theorem stop : Statement .stop := fun _ => rfl
theorem speed (v : BitVec 16) : Statement (.speed v) := fun _ => rfl
theorem tiltl : Statement .tiltl := fun _ => rfl
theorem tiltr : Statement .tiltr := fun _ => rfl
theorem status (f : StatusFields) : Statement (.status f) := fun _ => rfl
theorem barcode (payload : List Byte) : Statement (.barcode payload) := fun _ => rfl
theorem diag (code : Byte) : Statement (.diag code) := fun _ => rfl

end Sys2Proof.Laws.EncodePort
end

