-- ==== Sys2Proof/Laws/Words.lean ====
section
/-! SUPPORT. The fields of the words that `eventWord`, `commandWord` and `actuationWord` build, read back as the decoder reads
them. -/

namespace Sys2Proof

/-! ## Format E -/

@[simp] theorem eventWord_op (op sub : Byte) (arg : BitVec 64) : (eventWord op sub arg).extractLsb' 72 8 = op := by
  ext i hi
  simp only [eventWord, BitVec.getElem_extractLsb', BitVec.getLsbD_append]
  simp [show ¬ 72 + i < 64 by omega, show ¬ 72 + i - 64 < 8 by omega, show 72 + i - 64 - 8 = i by omega, BitVec.getLsbD_eq_getElem hi]

@[simp] theorem eventWord_sub (op sub : Byte) (arg : BitVec 64) : (eventWord op sub arg).extractLsb' 64 8 = sub := by
  ext i hi
  simp only [eventWord, BitVec.getElem_extractLsb', BitVec.getLsbD_append]
  simp [hi]

@[simp] theorem eventWord_arg (op sub : Byte) (arg : BitVec 64) : (eventWord op sub arg).extractLsb' 0 64 = arg := by
  ext i hi
  simp only [eventWord, BitVec.getElem_extractLsb', BitVec.getLsbD_append]
  simp [hi]

/-- The operand's low bits, which CPUSH and SNAP read. -/
@[simp] theorem eventWord_low (op sub : Byte) (arg : BitVec 64) (n : Nat) (h : n ≤ 64) :
    (eventWord op sub arg).extractLsb' 0 n = arg.extractLsb' 0 n := by
  ext i hi
  simp only [eventWord, BitVec.getElem_extractLsb', BitVec.getLsbD_append]
  simp [show i < 64 by omega]

/-- The operand's high half, which SNAP reads. -/
@[simp] theorem eventWord_high (op sub : Byte) (arg : BitVec 64) :
    (eventWord op sub arg).extractLsb' 32 32 = arg.extractLsb' 32 32 := by
  ext i hi
  simp only [eventWord, BitVec.getElem_extractLsb', BitVec.getLsbD_append]
  simp [show 32 + i < 64 by omega]

/-! ## Format C -/

@[simp] theorem commandWord_op (op sub : Byte) (arg : BitVec 32) : (commandWord op sub arg).extractLsb' 40 8 = op := by
  ext i hi
  simp only [commandWord, BitVec.getElem_extractLsb', BitVec.getLsbD_append]
  simp [show ¬ 40 + i < 32 by omega, show ¬ 40 + i - 32 < 8 by omega, show 40 + i - 32 - 8 = i by omega, BitVec.getLsbD_eq_getElem hi]

@[simp] theorem commandWord_sub (op sub : Byte) (arg : BitVec 32) : (commandWord op sub arg).extractLsb' 32 8 = sub := by
  ext i hi
  simp only [commandWord, BitVec.getElem_extractLsb', BitVec.getLsbD_append]
  simp [hi]

@[simp] theorem commandWord_arg (op sub : Byte) (arg : BitVec 32) : (commandWord op sub arg).extractLsb' 0 32 = arg := by
  ext i hi
  simp only [commandWord, BitVec.getElem_extractLsb', BitVec.getLsbD_append]
  simp [hi]

/-! ## Format A -/

@[simp] theorem actuationWord_op (op : Byte) (arg : BitVec 16) : (actuationWord op arg).extractLsb' 16 8 = op := by
  ext i hi
  simp only [actuationWord, BitVec.getElem_extractLsb', BitVec.getLsbD_append]
  simp [BitVec.getLsbD_eq_getElem hi]

@[simp] theorem actuationWord_arg (op : Byte) (arg : BitVec 16) : (actuationWord op arg).extractLsb' 0 16 = arg := by
  ext i hi
  simp only [actuationWord, BitVec.getElem_extractLsb', BitVec.getLsbD_append]
  simp [hi]

/-! ## SNAP -/

/-- The six bits of a SNAP's `sub` byte, read back (30_encoding.md R92). -/
theorem SnapArgs.sub_bits (a : SnapArgs) :
    a.sub.getLsbD 0 = a.headingValid ∧ a.sub.getLsbD 1 = a.distanceValid ∧ a.sub.getLsbD 2 = a.leftValid ∧
    a.sub.getLsbD 3 = a.rightValid ∧ a.sub.getLsbD 4 = a.leftBlack ∧ a.sub.getLsbD 5 = a.rightBlack := by
  have bits : ∀ h d l r lb rb : Bool,
      let w : Byte := 0#2 ++ BitVec.ofBool rb ++ BitVec.ofBool lb ++ BitVec.ofBool r ++ BitVec.ofBool l
        ++ BitVec.ofBool d ++ BitVec.ofBool h
      w.getLsbD 0 = h ∧ w.getLsbD 1 = d ∧ w.getLsbD 2 = l ∧ w.getLsbD 3 = r ∧ w.getLsbD 4 = lb ∧ w.getLsbD 5 = rb := by
    decide
  exact bits _ _ _ _ _ _

/-! ## BARCODE -/

theorem wf_barcode (payload : List Byte) : (Instr.barcode payload).wf = decide (payload.length ≤ 254) := rfl

/-! ## Bytes -/

@[simp] theorem natToBytes_length (n v : Nat) : (natToBytes n v).length = n := by
  induction n generalizing v with
  | zero => rfl
  | succ n ih => simp [natToBytes, ih]

/-- The bytes of a number write the number, modulo the room they have. -/
@[simp] theorem bytesToNat_natToBytes (n v : Nat) : bytesToNat (natToBytes n v) = v % 256 ^ n := by
  induction n generalizing v with
  | zero => simp [natToBytes, bytesToNat, Nat.mod_one]
  | succ n ih =>
    have step : bytesToNat (natToBytes n (v / 256) ++ [BitVec.ofNat 8 v])
        = bytesToNat (natToBytes n (v / 256)) * 256 + v % 256 := by
      simp [bytesToNat, List.foldl_append, BitVec.toNat_ofNat]
    rw [natToBytes, step, ih, Nat.pow_succ', Nat.mod_mul]
    omega

end Sys2Proof
end

