-- ==== Sys2Proof/Tests/Slice0.lean ====
section
/-! SUPPORT. The model's own tests. Expected values are the spec's: the worked encodings of 30_encoding.md R107 and the vectors V10 to
V108 of 95_test_vectors.md, named in each test, or words written out by hand from the tables of R92 to R97. The last part shows for each
statement with hypotheses a state and operands that meet them. -/

open Sys2Proof Sys2Proof.Machine

namespace Sys2Proof.Tests

/-! ## Helpers -/

/-- A component of the next state, if there is one. -/
def got {α : Type} (r : Result) (f : State → α) : Option α :=
  match r with
  | .next t => some (f t)
  | .fault _ => none
  | .refused _ => none

/-- A step answers a next state. -/
def runs (r : Result) : Bool := (got r (fun _ => ())).isSome

/-- The state after reset with the test gains of 95_test_vectors.md and a distance of 100 cm. -/
def bench : State :=
  { State.reset with ctl := ControllerRegs.reset ⟨3277, 0, 655, 1311, 33, 655⟩, snap := ⟨0, 0x00640000, false, false⟩ }

/-- `bench` in mode `m`, with the target, the two counts, the last error and the steady counter as given. -/
def at_ (m : Mode) (target l r : BitVec 64) (lastError : BitVec 66) (steady : BitVec 16) : State :=
  { bench with
    enc := { bench.enc with leftTicks := l, rightTicks := r, lSeen := true, rSeen := true }
    ctl := { bench.ctl with mode := m, targetTicks := target, lastError := lastError, steadyCounter := steady } }

/-- `bench` in Turn. -/
def turning (bearing : BitVec 16) (heading : Q16) (steady : BitVec 16) (g : Gains) : State :=
  { bench with
    ctl := { bench.ctl with mode := .turn, targetBearing := bearing, steadyCounter := steady, gains := g }
    snap := { bench.snap with heading := heading } }

/-- `bench` with one command waiting. -/
def waiting (s : State) (w : CommandWord) : State := { s with cmdQ := [w] }

/-- `bench` with the decoder accumulating: `n` intervals in the window, the last edge at `prev`. -/
def scanning (n : Fin 9) (prev : Time) (assembled : List Byte) : State :=
  { bench with
    bc := { bench.bc with state := .accumulating, edgeCount := n, prevEdgeT := prev, threshValid := true, threshold := 200,
                          assembled := assembled } }

/-- `scanning` with eight intervals of the sentinel in the window: bars 100 100 250 250 and one due, spaces 250 100 100 100. -/
def sentinelWindow (assembled : List Byte) : State :=
  let s := scanning 8 1250 assembled
  { s with bc := { s.bc with barW := #v[100, 100, 250, 250, 0], spaceW := #v[250, 100, 100, 100] } }

/-- `bench` with one status period but one tick over. -/
def duringPeriod (s : State) : State := { s with ctl := { s.ctl with telemCounter := 99 } }

/-! ## WellFormed -/

theorem test_wf_refuses_payload_of_255 : Instr.wf (.barcode (List.replicate 255 0x41)) = false := by
  rw [wf_barcode, List.length_replicate]; decide
theorem test_wf_allows_payload_of_254 : Instr.wf (.barcode (List.replicate 254 0x41)) = true := by
  rw [wf_barcode, List.length_replicate]; decide

/-! ## Decoding: a word of each row, written out from its table -/

theorem test_decode_reset : decodeEvent 0x00000000000000000000 = .ok .reset := by decide
theorem test_decode_ledge : decodeEvent 0x010000000000000003E8 = .ok (.ledge 1000) := by decide
theorem test_decode_redge : decodeEvent 0x020000000000000003E8 = .ok (.redge 1000) := by decide
theorem test_decode_pedgeR : decodeEvent 0x030100000000000003E8 = .ok (.pedgeR 1000) := by decide
/-- V93: the seven high bits of `sub` are ignored. -/
theorem test_decode_pedgeR_ignored_bits : decodeEvent 0x03FF00000000000003E8 = .ok (.pedgeR 1000) := by decide
theorem test_decode_pedgeF : decodeEvent 0x0300000000000000044C = .ok (.pedgeF 1100) := by decide
theorem test_decode_snap :
    decodeEvent 0x042F005A8000000F0000 = .ok (.snap ⟨true, true, true, true, false, true, 0x005A8000, 0x000F0000⟩) := by decide
theorem test_decode_snap_partial :
    decodeEvent 0x040200000000000E8000 = .ok (.snap ⟨false, true, false, false, false, false, 0, 0x000E8000⟩) := by decide
theorem test_decode_cpush : decodeEvent 0x05000000020000000064 = .ok (.cpush 0x020000000064) := by decide
theorem test_decode_ctick : decodeEvent 0x06020000000000000000 = .ok (.ctick 2) := by decide
theorem test_decode_tpop : decodeEvent 0x07000000000000000000 = .ok .tpop := by decide
/-- V92: reserved events. -/
theorem test_decode_reserved_event :
    decodeEvent 0x08000000000000000000 = .error (.reservedEvent 0x08) ∧
    decodeEvent 0xFF0123456789ABCDEF01 = .error (.reservedEvent 0xFF) := by decide

theorem test_decode_setmodeIdle : decodeCommand ModeChars.spec 0x017000000000 = .ok .setmodeIdle := by decide
theorem test_decode_setmodeFwd : decodeCommand ModeChars.spec 0x016600000000 = .ok .setmodeFwd := by decide
theorem test_decode_setmodeBa : decodeCommand ModeChars.spec 0x016200000000 = .ok .setmodeBa := by decide
theorem test_decode_setmodeTurn : decodeCommand ModeChars.spec 0x017400000000 = .ok .setmodeTurn := by decide
theorem test_decode_setticks : decodeCommand ModeChars.spec 0x020000000064 = .ok (.setticks 100) := by decide
theorem test_decode_setbear : decodeCommand ModeChars.spec 0x0300FFFFFFA6 = .ok (.setbear (-90)) := by decide
theorem test_decode_setgain : decodeCommand ModeChars.spec 0x04050000028F = .ok (.setgain 5 655) := by decide
theorem test_decode_rstenc : decodeCommand ModeChars.spec 0x050000000000 = .ok .rstenc := by decide
/-- V53, V54: reserved command words. -/
theorem test_decode_reserved_command :
    decodeCommand ModeChars.spec 0x017300000000 = .error (.reservedCommand 0x01 0x73) ∧
    decodeCommand ModeChars.spec 0x000000000000 = .error (.reservedCommand 0x00 0x00) ∧
    decodeCommand ModeChars.spec 0x060000000000 = .error (.reservedCommand 0x06 0x00) := by decide

theorem test_decode_fwd : decodeActuation 0x010000 = .ok .fwd := by decide
theorem test_decode_bwd : decodeActuation 0x020000 = .ok .bwd := by decide
theorem test_decode_rcw : decodeActuation 0x030000 = .ok .rcw := by decide
theorem test_decode_rccw : decodeActuation 0x040000 = .ok .rccw := by decide
theorem test_decode_stop : decodeActuation 0x050000 = .ok .stop := by decide
theorem test_decode_speed : decodeActuation 0x063D71 = .ok (.speed 15729) := by decide
theorem test_decode_tiltl : decodeActuation 0x070000 = .ok .tiltl := by decide
theorem test_decode_tiltr : decodeActuation 0x080000 = .ok .tiltr := by decide
theorem test_decode_no_actuation :
    decodeActuation 0x090000 = .error (.noSuchActuation 0x09) ∧
    decodeActuation 0x010001 = .error (.actuationOperand 0x01) := by decide

/-- The record of V80, its 55 bytes written out by R97: 'f', 500, 500, 1000, 0, 500, #65536, #3277, #0, #655, 65535. -/
theorem test_decode_status :
    decodeRecord
      ([0x01, 0x66, 0, 0, 0, 0, 0, 0, 0x01, 0xF4, 0, 0, 0, 0, 0, 0, 0x01, 0xF4, 0, 0, 0, 0, 0, 0, 0x03, 0xE8, 0, 0] ++
        [0, 0, 0, 0, 0, 0, 0, 0x01, 0xF4, 0x00, 0x01, 0x00, 0x00, 0x00, 0x00, 0x0C, 0xCD, 0, 0, 0, 0, 0x00, 0x00, 0x02, 0x8F,
          0xFF, 0xFF]) =
      .ok (.status ⟨0x66, 500, 500, 1000, 0, 500, 65536, 3277, 0, 655, 65535⟩) := by decide
theorem test_decode_barcode : decodeRecord [0x02, 0x03, 0x41, 0x42, 0x31] = .ok (.barcode [0x41, 0x42, 0x31]) := by decide
theorem test_decode_barcode_empty : decodeRecord [0x02, 0x00] = .ok (.barcode []) := by decide
theorem test_decode_diag : decodeRecord [0x03, 0x01] = .ok (.diag 1) := by decide
theorem test_decode_bad_record :
    decodeRecord [0x02, 0x02, 0x41] = .error (.recordLength [0x02, 0x02, 0x41]) ∧
    decodeRecord [0x04] = .error (.noSuchRecord [0x04]) := by decide

/-- The table's numbering: its own match values, and BARCODE in one byte and in two (log entry 16). -/
theorem test_table_words :
    decodeTableWord 80 0x03010000000000000000 = some (.pedgeR 0) ∧
    decodeTableWord 48 0x017400000000 = some .setmodeTurn ∧
    decodeTableWord 24 0x080000 = some .tiltr ∧
    decodeTableWord 8 0x02 = some (.barcode []) ∧
    decodeTableWord 16 0x0002 = some (.barcode []) ∧
    decodeTableWord 16 0x0202 = some (.barcode [0, 0]) ∧
    decodeTableWord 16 0x0301 = some (.diag 1) := by decide

/-- The table's match value of STATUS, 0x01 and 54 bytes of zeros, in the operand of speed 9. -/
theorem test_table_status :
    decodeTableWord 440
      0x01000000000000000000000000000000000000000000000000000000000000000000000000000000000000000000000000000000000009 = some (.status ⟨0, 0, 0, 0, 0, 0, 0, 0, 0, 0, 9⟩) := by rfl

theorem test_encode_examples :
    encode ModeChars.spec (.snap ⟨false, true, true, false, true, false, 0, 0x000E8000⟩) =
      .event 0x041600000000000E8000 ∧
    encode ModeChars.spec (.setbear (-90)) = .command 0x0300FFFFFFA6 ∧
    encode ModeChars.spec (.barcode [0x41]) = .telemetry [0x02, 0x01, 0x41] := by decide

/-! ## The step -/

theorem test_first_step_runs_word :
    got (step (State.reset.withFetchWord 80 0x010000000000000003E8)) (fun t => (t.enc.leftTicks, t.inbox)) = some (1, []) := by
  decide
theorem test_first_step_runs_record :
    got (step (State.reset.withFetchWord 16 0x0301)) (fun t => t.telemQ) = some [.diag 1] := by decide
theorem test_idle_step_waits : step State.reset = .next State.reset := rfl
/-- V92. -/
theorem test_reserved_event_step :
    step { bench with inbox := [.event 0xFF0123456789ABCDEF01] } = .next bench := rfl
theorem test_malformed_actuation_refused :
    step { bench with inbox := [.actuation 0x010001] } = .refused (.noSuchActuation 0x010001) := rfl

/-! ## Encoder edges -/

/-- V10: with no debouncing every edge counts. -/
theorem test_ledge_counts :
    got (exec (.ledge 5) { bench with enc := ⟨1, 7, true, false, 5, 0⟩ })
      (fun t => t.enc) = some ⟨2, 7, true, false, 5, 0⟩ := by decide
/-- V14: the timebase wrapped; 110 units are fewer than 500, and 500 units are enough. -/
theorem test_ledge_debounce_wraps :
    let s : State := { bench with par := { Params.spec with encDebounce := 500 }, enc := ⟨4, 0, true, false, -10, 0⟩ }
    got (exec (.ledge 100) s) (fun t => t.enc.leftTicks) = some 4 ∧
    got (exec (.ledge 490) s) (fun t => (t.enc.leftTicks, t.enc.lLastT)) = some (5, 490) := by decide
/-- V13, on the right wheel: the count wraps. -/
theorem test_redge_wraps :
    got (exec (.redge 1) { bench with enc := ⟨3, -1, true, true, 0, 0⟩ }) (fun t => (t.enc.leftTicks, t.enc.rightTicks))
      = some (3, 0) := by decide
/-- V11: the first edge counts whatever its timestamp. -/
theorem test_redge_first_edge :
    got (exec (.redge 0) { bench with par := { Params.spec with encDebounce := 500 } })
      (fun t => (t.enc.rightTicks, t.enc.rSeen, t.enc.lSeen)) = some (1, true, false) := by decide

/-! ## The snapshot -/

/-- V20: heading and right line held, distance and left line written. -/
theorem test_snap_holds_invalid :
    got (exec (.snap ⟨false, true, true, false, true, true, 5, 0x000E8000⟩) { bench with snap := ⟨0x000A0000, 0x00500000, false, false⟩ })
      (fun t => t.snap) = some ⟨0x000A0000, 0x000E8000, true, false⟩ := by decide

/-! ## The photodetector -/

/-- V40: a space of 250 after a bar that ended at 1100. -/
theorem test_pedgeR_space :
    got (exec (.pedgeR 1350) (scanning 1 1100 [])) (fun t => (t.bc.spaceW[0], t.bc.edgeCount, t.bc.prevEdgeT)) = some (250, 2, 1350) := by
  decide
/-- V30, f1100: the first bar seeds the threshold with twice its width. -/
theorem test_pedgeF_seeds :
    got (exec (.pedgeF 1100) { bench with bc := { bench.bc with state := .accumulating, prevEdgeT := 1000 } })
      (fun t => (t.bc.threshold, t.bc.threshValid, t.bc.barW[0], t.bc.edgeCount)) = some (200, true, 100, 1) := by decide
/-- V30, f2350 and f5250: the start sentinel, and the end sentinel, which pushes the payload. -/
theorem test_pedgeF_sentinels :
    got (exec (.pedgeF 1350) (sentinelWindow []))
      (fun t => (t.bc.edgeCount, t.bc.reversed, t.bc.assembled, t.telemQ)) = some (0, false, [0x2A], []) ∧
    got (exec (.pedgeF 1350) (sentinelWindow [0x2A, 0x41])) (fun t => (t.bc.assembled, t.telemQ)) =
      some ([], [.barcode [0x41]]) := by decide
/-- V43: a width of exactly the threshold is narrow. -/
theorem test_threshold_is_narrow : wide 200 200 = false ∧ wide 200 201 = true := by decide
/-- V31: the patterns that V31 names: 01100/0001 is `P`, 00110/1000 is `*`, 10001/0100 is `0`, 10001/0010 is `A`. -/
theorem test_symbols :
    decodeSymbol [false, true, true, false, false] [false, false, false, true] = 0x50 ∧
    decodeSymbol [false, false, true, true, false] [true, false, false, false] = 0x2A ∧
    decodeSymbol [true, false, false, false, true] [false, true, false, false] = 0x30 ∧
    decodeSymbol [true, false, false, false, true] [false, false, true, false] = 0x41 := by decide

/-! ## Channels -/

theorem test_cpush_appends : got (exec (.cpush 7) { bench with cmdQ := [3] }) (fun t => t.cmdQ) = some [3, 7] := by decide
/-- V55. -/
theorem test_cpush_full :
    got (exec (.cpush 7) { bench with cmdQ := List.replicate 8 3 }) (fun t => t.cmdQ) = some (List.replicate 8 3) := by decide
/-- V87. -/
theorem test_tpop :
    got (exec .tpop { bench with telemQ := [.diag 1, .barcode [0x41]] }) (fun t => (t.telemQ, t.telemOut)) =
      some ([.barcode [0x41]], [.diag 1]) := by decide
theorem test_diag_push : got (exec (.diag 1) { bench with telemQ := [.barcode []] }) (fun t => t.telemQ) =
    some [.barcode [], .diag 1] := by decide
theorem test_barcode_push : got (exec (.barcode [0x41]) bench) (fun t => t.telemQ) = some [.barcode [0x41]] := by decide
theorem test_status_push :
    got (exec (.status ⟨0x66, 1, 2, 3, 4, 5, 6, 7, 8, 9, 10⟩) bench) (fun t => t.telemQ) =
      some [.status ⟨0x66, 1, 2, 3, 4, 5, 6, 7, 8, 9, 10⟩] := by decide

/-! ## Commands -/

/-- V51. -/
theorem test_setmodeIdle :
    got (exec .setmodeIdle (at_ .forward 100 5 6 3 17)) (fun t => (t.ctl.mode, t.ctl.lastError, t.ctl.steadyCounter, t.enc.leftTicks)) =
      some (.idle, 0, 0, 5) := by decide
/-- V52: the counts are cleared, the target stays. -/
theorem test_setmodeFwd :
    got (exec .setmodeFwd (at_ .idle 100 41 40 0 0)) (fun t => (t.ctl.mode, t.ctl.targetTicks, t.enc.leftTicks, t.enc.rightTicks, t.enc.lSeen))
      = some (.forward, 100, 0, 0, true) := by decide
theorem test_setmodeBa :
    got (exec .setmodeBa (at_ .idle 100 41 40 0 0)) (fun t => (t.ctl.mode, t.enc.leftTicks, t.enc.rightTicks)) =
      some (.barcodeApproach, 0, 0) := by decide
theorem test_setmodeTurn :
    got (exec .setmodeTurn (at_ .idle 100 41 40 0 0)) (fun t => (t.ctl.mode, t.enc.leftTicks)) = some (.turn, 41) := by decide
/-- V44, V45. -/
theorem test_setticks :
    got (exec (.setticks 100) (at_ .idle 7 0 0 0 0)) (fun t => t.ctl.targetTicks) = some 100 ∧
    got (exec (.setticks (-1)) (at_ .idle 7 0 0 0 0)) (fun t => t.ctl.targetTicks) = some 7 := by decide
/-- V46, V47: headings 30.5 and 10.0. -/
theorem test_setbear :
    got (exec (.setbear 90) (turning 0 0x001E8000 0 Gains.zero)) (fun t => t.ctl.targetBearing) = some 120 ∧
    got (exec (.setbear (-90)) (turning 0 0x000A0000 0 Gains.zero)) (fun t => t.ctl.targetBearing) = some 280 := by decide
/-- V49, V50. -/
theorem test_setgain :
    got (exec (.setgain 5 655) State.reset) (fun t => t.ctl.gains) = some ⟨0, 0, 0, 0, 0, 655⟩ ∧
    got (exec (.setgain 6 65536) State.reset) (fun t => t.ctl.gains) = some Gains.zero := by decide
/-- V15. -/
theorem test_rstenc :
    got (exec .rstenc (at_ .forward 0 9 9 0 0)) (fun t => (t.enc.leftTicks, t.enc.rightTicks)) = some (9, 9) ∧
    got (exec .rstenc (at_ .idle 0 9 9 0 0)) (fun t => (t.enc.leftTicks, t.enc.rightTicks)) = some (0, 0) := by decide

/-! ## Reset and the control tick -/

/-- V90: queues emptied, Idle, nothing emitted. -/
theorem test_reset :
    got (exec .reset { at_ .forward 100 9 9 3 17 with cmdQ := [7], telemQ := [.diag 1], actOut := [.fwd] })
      (fun t => (t.enc.leftTicks, t.cmdQ, t.telemQ, t.actOut)) = some (0, [], [], [.fwd]) := by decide
/-- One tick of each moving mode: V104 (wheel term −8, line term +2, so six tilts to the left), V106, V73 (the Turn law truncates
towards zero), V107 and V105 (the capture). -/
theorem test_ctick_modes :
    (let s := at_ .forward 100 40 10 60 0
     got (exec (.ctick 0) { s with snap := { s.snap with leftBlack := true } }) (fun t => (t.ctl.speed, t.actOut)) =
       some (65535, [.fwd, .speed 65535, .tiltl, .tiltl, .tiltl, .tiltl, .tiltl, .tiltl])) ∧
    got (exec (.ctick 0) (at_ .reverse 9 3 0 0 0)) (fun t => t.actOut) =
      some [.bwd, .speed 23591, .tiltr, .tiltr, .tiltr] ∧
    got (exec (.ctick 0) (turning 90 0x005B8000 0 ⟨0, 0, 0, 1, 0, 0⟩)) (fun t => (t.ctl.ctrl, t.actOut)) =
      some (-1, [.rccw, .speed 0]) ∧
    got (exec (.ctick 0) (at_ .forward 20 26 23 (-6) 49)) (fun t => (t.ctl.mode, t.actOut)) =
      some (.reverseTransition, [.stop]) ∧
    got (exec (.ctick 0) (at_ .reverseTransition 25 30 34 0 9))
      (fun t => (t.ctl.mode, t.enc.leftTicks, t.enc.rightTicks, t.ctl.targetTicks)) = some (.reverse, 0, 4, 5) := by decide
/-- V80, and V82 (every try of the lock fails, so nothing is pushed). -/
theorem test_ctick_telemetry :
    got (exec (.ctick 0) (duringPeriod (at_ .forward 1000 500 500 501 0))) (fun t => t.telemQ) =
      some [.status ⟨0x66, 500, 500, 1000, 0, 500, 65536, 3277, 0, 655, 65535⟩] ∧
    got (exec (.ctick 3) (duringPeriod (at_ .forward 1000 500 500 501 0))) (fun t => (t.actOut, t.telemQ, t.ctl.telemCounter)) =
      some ([.fwd, .speed 65535, .stop, .stop, .stop], [], 0) := by decide
/-- V60 to V63. -/
theorem test_wrap180 :
    wrap180 (-22282240) = 1310720 ∧ wrap180 22282240 = -1310720 ∧ wrap180 (-11796480) = -11796480 ∧
    wrap180 11796480 = 11796480 := by decide

/-! ## The actuation words -/

theorem test_actuation_fwd : got (exec .fwd bench) (fun t => t.actOut) = some [.fwd] := by decide
theorem test_actuation_bwd : got (exec .bwd bench) (fun t => t.actOut) = some [.bwd] := by decide
theorem test_actuation_rcw : got (exec .rcw bench) (fun t => t.actOut) = some [.rcw] := by decide
theorem test_actuation_rccw : got (exec .rccw bench) (fun t => t.actOut) = some [.rccw] := by decide
theorem test_actuation_stop : got (exec .stop bench) (fun t => t.actOut) = some [.stop] := by decide
theorem test_actuation_speed :
    got (exec (.speed 9) bench) (fun t => (t.actOut, t.ctl.speed)) = some ([.speed 9], 0) := by decide
theorem test_actuation_tiltl : got (exec .tiltl bench) (fun t => t.actOut) = some [.tiltl] := by decide
theorem test_actuation_tiltr : got (exec .tiltr bench) (fun t => t.actOut) = some [.tiltr] := by decide

/-! ## Witnesses: for each statement with hypotheses, states and operands that meet them, clause by clause -/

/-- `bench` with the decoder accumulating eight intervals and the widths of `bars` and `spaces` (the ninth interval is due). -/
def nearlyComplete (bars : Vector Time 5) (spaces : Vector Time 4) (reversed : Bool) (assembled : List Byte) : State :=
  let s := scanning 8 1250 assembled
  { s with bc := { s.bc with barW := bars, spaceW := spaces, reversed := reversed } }

/-- The window that the ninth interval of 100, ending at 1350, completes. -/
def completed (s : State) : BarcodeRegs := s.bc.recordBar s.par.seedPolicy 1350

theorem test_witness_StepRunsDecodedInstruction :
    let s := { bench with inbox := [.event 0x010000000000000003E8] }
    s.inbox = .event 0x010000000000000003E8 :: [] ∧
      decode s.par.modeChars (.event 0x010000000000000003E8) = .ok (.ledge 1000) := by decide

theorem test_witness_ReservedWordsChangeNothing_event :
    0x08 ≤ ((0x08000000000000000000 : EventWord).extractLsb' 72 8).toNat ∧
    0x08 ≤ ((0xFF0123456789ABCDEF01 : EventWord).extractLsb' 72 8).toNat := by decide
theorem test_witness_ReservedWordsChangeNothing_command :
    (0x000000000000 : CommandWord).extractLsb' 40 8 = 0x00#8 ∧
    0x06 ≤ ((0x060000000000 : CommandWord).extractLsb' 40 8).toNat ∧
    ((0x017300000000 : CommandWord).extractLsb' 40 8 = 0x01#8 ∧
      (0x017300000000 : CommandWord).extractLsb' 32 8 ∉ [bench.par.modeChars.idle, bench.par.modeChars.forward,
        bench.par.modeChars.barcodeApproach, bench.par.modeChars.turn]) ∧
    ((0x040600010000 : CommandWord).extractLsb' 40 8 = 0x04#8 ∧ 5 < ((0x040600010000 : CommandWord).extractLsb' 32 8).toNat) ∧
    ((0x0200FFFFFFFF : CommandWord).extractLsb' 40 8 = 0x02#8 ∧ ((0x0200FFFFFFFF : CommandWord).extractLsb' 0 32).toInt < 0) := by
  decide

theorem test_witness_EventTracesNeverStop :
    State.eventsOnly { bench with inbox := [.event 0, .event 0xFF0123456789ABCDEF01] } = true ∧ bench.eventsOnly = true ∧
      bench.inbox = [] := by decide

theorem test_witness_EventsKeepToTheirGroups : runs (exec (.ledge 5) bench) ∧ runs (exec (.ctick 0) bench) := by decide

theorem test_witness_invariants :
    let s := { bench with inbox := [.event 0x06000000000000000000] }
    s.par.Valid ∧ s.QueueInv ∧ s.EncoderInv ∧ runs (step s) := by decide
theorem test_witness_StepsKeepControllerInvariant :
    let s := { bench with inbox := [.event 0x06000000000000000000] }
    s.par.Valid ∧ s.ControllerInv ∧ runs (step s) := by decide
theorem test_witness_StepsKeepBarcodeInvariant :
    let s := { bench with inbox := [.event 0x030100000000000003E8] }
    s.par.Valid ∧ s.BarcodeInv ∧ runs (step s) := by decide

theorem test_witness_DecodeInvertsEncode :
    Params.spec.Valid ∧ (Instr.barcode []).wf = true ∧ (Instr.barcode (List.replicate 254 0x41)).wf = true :=
  ⟨by decide, by decide, test_wf_allows_payload_of_254⟩

theorem test_witness_OutputFormatsHaveOneSpelling :
    decodeActuation 0x063D71 = .ok (.speed 15729) ∧ decodeRecord [0x02, 0x01, 0x41] = .ok (.barcode [0x41]) := by decide

theorem test_witness_LedgeCountsQualifyingEdges :
    let s : State := { bench with par := { Params.spec with encDebounce := 500 }, enc := ⟨7, 7, true, true, 10000, 10000⟩ }
    bench.enc.lSeen = false ∧ s.par.encDebounce ≤ ((10500 : Time) - s.enc.lLastT).toNat ∧
    (s.enc.lSeen = true ∧ ((10499 : Time) - s.enc.lLastT).toNat < s.par.encDebounce) := by decide
theorem test_witness_RedgeCountsQualifyingEdges :
    let s : State := { bench with par := { Params.spec with encDebounce := 500 }, enc := ⟨7, 7, true, true, 10000, 10000⟩ }
    bench.enc.rSeen = false ∧ s.par.encDebounce ≤ ((10500 : Time) - s.enc.rLastT).toNat ∧
    (s.enc.rSeen = true ∧ ((10499 : Time) - s.enc.rLastT).toNat < s.par.encDebounce) := by decide

theorem test_witness_CountsNeverDecrease :
    let s := at_ .forward 100 5 (-3) 95 0
    runs (runAll [.ledge 1, .redge 2] s) ∧ onlyIncrements [.ledge 1, .redge 2] s = true ∧
      s.enc.leftTicks.toNat + 2 < 2 ^ 64 ∧ s.enc.rightTicks.toNat + 2 < 2 ^ 64 := by decide

theorem test_witness_PedgeR :
    bench.bc.state = .idle ∧
    ((scanning 1 1100 []).bc.state = .accumulating ∧ (scanning 1 1100 []).bc.edgeCount.val % 2 = 1) ∧
    ((scanning 7 1100 []).bc.state = .accumulating ∧ (scanning 7 1100 []).bc.edgeCount.val % 2 = 1) ∧
    ((scanning 0 1100 []).bc.state = .accumulating ∧ (scanning 0 1100 []).bc.edgeCount.val % 2 = 0) ∧
    ((scanning 8 1100 []).bc.state = .accumulating ∧ (scanning 8 1100 []).bc.edgeCount.val % 2 = 0) := by decide

theorem test_witness_PedgeF :
    bench.bc.state = .idle ∧
    ((scanning 7 1100 []).bc.state = .accumulating ∧ (scanning 7 1100 []).bc.edgeCount.val % 2 = 1) ∧
    ((scanning 0 1100 []).bc.state = .accumulating ∧ (scanning 0 1100 []).bc.edgeCount.val % 2 = 0 ∧
      (scanning 0 1100 []).bc.edgeCount.val ≠ 8) ∧
    ((scanning 6 1100 []).bc.state = .accumulating ∧ (scanning 6 1100 []).bc.edgeCount.val % 2 = 0 ∧ (scanning 6 1100 []).bc.edgeCount.val ≠ 8) := by decide

/-- The ninth interval of a sentinel, of a sentinel read backwards, of nine narrow elements; then an end sentinel and a later
character. -/
theorem test_witness_NinthIntervalClassifies_start :
    let s := nearlyComplete #v[100, 100, 250, 250, 0] #v[250, 100, 100, 100] false []
    s.bc.state = .accumulating ∧ s.bc.edgeCount.val = 8 ∧ s.bc.assembled = [] ∧ (completed s).normalChar = sentinel := by decide
theorem test_witness_NinthIntervalClassifies_backwards :
    let s := nearlyComplete #v[100, 250, 250, 100, 0] #v[100, 100, 100, 250] false []
    s.bc.state = .accumulating ∧ s.bc.edgeCount.val = 8 ∧ s.bc.assembled = [] ∧ (completed s).normalChar ≠ sentinel ∧ (completed s).reversedChar = sentinel := by decide
theorem test_witness_NinthIntervalClassifies_notFound :
    let s := nearlyComplete #v[100, 100, 100, 100, 0] #v[100, 100, 100, 100] false []
    s.bc.state = .accumulating ∧ s.bc.edgeCount.val = 8 ∧ s.bc.assembled = [] ∧ (completed s).normalChar ≠ sentinel ∧ (completed s).reversedChar ≠ sentinel := by decide
theorem test_witness_NinthIntervalClassifies_end :
    let s := nearlyComplete #v[100, 250, 250, 100, 0] #v[100, 100, 100, 250] true [0x2A]
    s.bc.state = .accumulating ∧ s.bc.edgeCount.val = 8 ∧ s.bc.assembled ≠ [] ∧ s.bc.reversed = true ∧ (completed s).reversedChar = sentinel := by decide
theorem test_witness_NinthIntervalClassifies_char :
    let s := nearlyComplete #v[250, 100, 100, 250, 0] #v[100, 100, 250, 100] false [0x2A]
    s.bc.state = .accumulating ∧ s.bc.edgeCount.val = 8 ∧ s.bc.assembled ≠ [] ∧ s.bc.reversed = false ∧ (completed s).normalChar ≠ sentinel := by decide

theorem test_witness_SymbolTableMapsPatternsToCharacters :
    barTable.all (fun row => row.1 ≠ [false, false, false, false, false]) = true ∧
    spaceTable.all (fun row => row.1 ≠ [true, true, true, true]) = true := by decide

theorem test_witness_ClassificationNeedsNineIntervals :
    got (exec (.pedgeF 1350) (sentinelWindow [])) (fun u => decide (u.bc.assembled ≠ (sentinelWindow []).bc.assembled)) = some true := by
  decide

theorem test_witness_BarcodeRoundTrip :
    bench.bc = BarcodeRegs.reset ∧ bench.par.Valid ∧ bench.par.seedPolicy = .once ∧
    0 < (1 : Time).toNat ∧ 2 * (1 : Time).toNat < (3 : Time).toNat ∧
    ([true, false, false, false, true], 1) ∈ barTable ∧ ([false, false, true, false], 10) ∈ spaceTable ∧
    decodeSymbol [true, false, false, false, true] [false, false, true, false] ≠ sentinel := by decide

theorem test_witness_CpushAppendsOrDrops :
    (List.replicate 7 (0 : CommandWord)).length < bench.par.cmdDepth ∧ bench.par.cmdDepth ≤ (List.replicate 8 (0 : CommandWord)).length := by
  decide

theorem test_witness_TpopTakesOldestRecord :
    bench.telemQ = [] ∧ State.telemQ { bench with telemQ := [.diag 1] } = .diag 1 :: [] := by decide

theorem test_witness_PollRunsOldestCommand :
    bench.cmdQ = [] ∧ bench.par.Valid ∧
    (waiting bench 0x020000000064).cmdQ = encodeCommand bench.par.modeChars (.setticks 100) :: [] ∧
    decodeCommand bench.par.modeChars 0x017300000000 = .error (.reservedCommand 0x01 0x73) := by decide
/-- Words with ignored bits that are not 0 (30_encoding.md R94): SETTICKS and SETBEAR with a `sub`, SETMODE with an `arg`, RSTENC with both. -/
theorem test_witness_PollRunsOldestCommand_ignored_bits :
    decodeCommand bench.par.modeChars 0x02FF00000064 = .ok (.setticks 100) ∧
    decodeCommand bench.par.modeChars 0x0301FFFFFFA6 = .ok (.setbear (-90)) ∧
    decodeCommand bench.par.modeChars 0x0166FFFFFFFF = .ok .setmodeFwd ∧
    decodeCommand bench.par.modeChars 0x05FF12345678 = .ok .rstenc := by decide

theorem test_witness_SetticksWritesTarget :
    0 ≤ (0 : BitVec 32).toInt ∧ 0 ≤ (0x7FFFFFFF : BitVec 32).toInt ∧ (-1 : BitVec 32).toInt < 0 := by decide
theorem test_witness_SetgainWritesOneGain : 5 < (6 : Byte).toNat ∧ 5 < (255 : Byte).toNat := by decide
theorem test_witness_RstencOnlyInIdleAndTurn :
    bench.ctl.mode = .idle ∧ (turning 0 0 0 Gains.zero).ctl.mode = .turn ∧
    ((at_ .forward 0 9 9 0 0).ctl.mode ≠ .idle ∧ (at_ .forward 0 9 9 0 0).ctl.mode ≠ .turn) := by decide

/-- A quiet tick, up to the last one before a record is due; with a record due, or a period of 1, no tick is quiet. -/
theorem test_witness_CtickRunsItsStepsInOrder :
    bench.Quiet ∧ State.Quiet { bench with ctl := { bench.ctl with telemCounter := 98 } } ∧ ¬ (duringPeriod bench).Quiet ∧
    ¬ State.Quiet { bench with par := { Params.spec with telemPeriodMove := 1 } } := by decide

/-- Idle, also with a record due and with words still waiting. -/
theorem test_witness_IdleTickEmitsStop :
    bench.ctl.mode = .idle ∧ (duringPeriod bench).ctl.mode = .idle ∧ (waiting bench 0x050000000000).ctl.mode = .idle := by decide

/-- The zone of R232: an error of exactly `TOL_TICKS` with the counter below the window, and the two ends of the dwell at the
tick that fills it, on the two sides of −`TOL_TICKS` (V107 and its neighbour). -/
theorem test_witness_ForwardZoneStopsAndSettles :
    (let s := at_ .forward 100 98 98 2 48
     s.ctl.mode = .forward ∧ s.distError ≤ s.par.tolTicks ∧ s.ctl.steadyCounter.toNat + 1 < s.par.steadyWindow) ∧
    (let s := at_ .barcodeApproach 20 23 23 (-3) 49
     s.ctl.mode = .barcodeApproach ∧ s.par.steadyWindow ≤ s.ctl.steadyCounter.toNat + 1 ∧
       s.distError < -(s.par.tolTicks : Int)) ∧
    (let s := at_ .forward 20 22 22 (-2) 49
     s.ctl.mode = .forward ∧ s.par.steadyWindow ≤ s.ctl.steadyCounter.toNat + 1 ∧ -(s.par.tolTicks : Int) ≤ s.distError ∧
       s.distError ≤ s.par.tolTicks) := by decide

/-- Outside the zone, with the control positive (V58) and not positive (V59); the obstacle does not override at exactly 15 cm. -/
theorem test_witness_ForwardDrivesOutsideZone :
    (let s := at_ .forward 100 95 95 6 0
     s.ctl.mode = .forward ∧ (s.par.tolTicks : Int) < s.distError ∧ 0 < s.pdControl s.distError) ∧
    (let s := at_ .forward 100 90 90 70 0
     s.ctl.mode = .forward ∧ (s.par.tolTicks : Int) < s.distError ∧ s.pdControl s.distError ≤ 0) ∧
    ¬ State.obstacle { bench with snap := { bench.snap with distance := 983040 } } ∧
    State.obstacle { bench with snap := { bench.snap with distance := 983039 } } := by decide

/-- Reverse: the zone below and at the window (V108), and driving with the control positive (V106) and not. -/
theorem test_witness_ReverseTickDrivesBackwards :
    (let s := at_ .reverse 9 7 7 2 48
     s.ctl.mode = .reverse ∧ s.distError ≤ s.par.tolTicks ∧ s.ctl.steadyCounter.toNat + 1 < s.par.steadyWindow) ∧
    (let s := at_ .reverse 9 15 15 (-6) 49
     s.ctl.mode = .reverse ∧ s.distError ≤ s.par.tolTicks ∧ s.par.steadyWindow ≤ s.ctl.steadyCounter.toNat + 1) ∧
    (let s := at_ .reverse 9 3 0 0 0
     s.ctl.mode = .reverse ∧ (s.par.tolTicks : Int) < s.distError ∧ 0 < s.pdControl s.distError) ∧
    (let s := at_ .reverse 9 3 0 70 0
     s.ctl.mode = .reverse ∧ (s.par.tolTicks : Int) < s.distError ∧ s.pdControl s.distError ≤ 0) := by decide

theorem test_witness_ReverseTransitionDwellsThenCaptures :
    (let s := at_ .reverseTransition 25 30 34 0 8
     s.ctl.mode = .reverseTransition ∧ s.ctl.steadyCounter.toNat + 1 < s.par.rtDwellTicks) ∧
    (let s := at_ .reverseTransition 25 30 34 0 9
     s.ctl.mode = .reverseTransition ∧ s.par.rtDwellTicks ≤ s.ctl.steadyCounter.toNat + 1) := by decide

/-- V74 (settled at exactly 3 degrees, the window full) and V75 (one raw unit more). -/
theorem test_witness_TurnTickRunsPidLaw :
    (let s := turning 120 0x00750000 49 Gains.zero
     s.ctl.mode = .turn ∧ s.settled s.turnError ∧
       s.par.steadyWindow ≤ s.ctl.steadyCounter.toNat + 1) ∧
    (let s := turning 120 0x0074FFFF 49 Gains.zero
     s.ctl.mode = .turn ∧ ¬ s.settled s.turnError ∧ 0 < s.par.steadyWindow) := by decide

theorem test_witness_WrapOneEightyIsShortestWay :
    ((0 : Int) ≤ 0 ∧ (0 : Int) < 360 ∧ (0 : Int) ≤ 360 * 65536 - 1 ∧ (360 * 65536 - 1 : Int) < 360 * 65536) ∧
    ((0 : Int) ≤ 359 ∧ (359 : Int) < 360) ∧
    (180 * 65536 < (180 * 65536 + 1 : Int) ∧ (-(180 * 65536) - 1 : Int) < -(180 * 65536) ∧
      -(180 * 65536) ≤ (180 * 65536 : Int) ∧ (180 * 65536 : Int) ≤ 180 * 65536) := by decide

theorem test_witness_SpeedScalingIsMonotoneAndBounded :
    |(-65536 : Int)| ≤ 65536 ∧ |(65536 : Int)| ≤ 65536 ∧ |(0 : Int)| ≤ |(-65536 : Int)| := by decide

/-- P4: an obstacle at 14.5 cm. -/
theorem test_witness_ObstacleForcesTargetInOneTick :
    let s := { waiting bench 0x016600000000 with snap := { bench.snap with distance := 950272 } }
    s.par.Valid ∧ s.cmdQ = encodeCommand s.par.modeChars .setmodeFwd :: [] ∧
      s.snap.distance.toInt < (s.par.obstacleCm : Int) * 65536 := by decide

theorem test_witness_TelemetryStepSendsStatusUnderLock :
    State.telemPeriod bench = 100 ∧
    (State.ctl { bench with ctl := { bench.ctl with telemCounter := 98 } }).telemCounter.toNat + 1 < 100 ∧
    100 ≤ (duringPeriod bench).ctl.telemCounter.toNat + 1 := by decide

theorem test_witness_FullTelemetryNeverAffectsTick :
    bench.par.telemDepth ≤ (List.replicate 16 (Record.diag 1)).length ∧ runs (exec (.ctick 0) (duringPeriod bench)) := by decide

theorem test_witness_TickEmitsOneOrderedSequence : runs (exec (.ctick 3) (duringPeriod (at_ .forward 1000 500 500 501 0))) := by decide

theorem test_witness_ModeChangesOnlyAsListed :
    runs (exec (.ledge 0) bench) ∧ (Instr.ledge 0).format ≠ .C ∧ runs (exec (.ctick 0) bench) ∧ 1 ≤ bench.par.steadyWindow := by
  decide

theorem test_witness_CaptureKeepsOvershootAndDifferential :
    (at_ .reverseTransition 25 0x7FFFFFFFFFFFFFFF 34 0 9).enc.leftTicks.toNat < 2 ^ 63 := by decide

/-- V57: the window one tick from full. -/
theorem test_witness_ForwardSettlesWithinWindow :
    let s := at_ .forward 100 100 100 0 49
    s.par.Valid ∧ s.cmdQ = [] ∧ s.ctl.mode = .forward ∧ (s.par.obstacleCm : Int) * 65536 ≤ s.snap.distance.toInt ∧
      |(s.ctl.targetTicks.toNat : Int) - s.enc.leftTicks.toNat| ≤ s.par.tolTicks ∧
      s.ctl.steadyCounter.toNat + 1 = s.par.steadyWindow := by decide

theorem test_witness_ErrorClassesMatchResponses :
    runs (exec (.pedgeF 1350) (sentinelWindow [])) ∧
    ¬ (bench.bc.state = .accumulating ∧ bench.bc.edgeCount.val = 8) := by decide
/-- A Forward tick with an obstacle, a record due and the channel full: E4, E5 for the failed try, E3; with three failed tries E3 does
not follow; at exactly 15 cm, with no record due, no class; in Reverse an obstacle is no class. -/
theorem test_witness_ErrorClassesMatchResponses_tick :
    let near (s : State) (d : Q16) : State := { s with snap := { s.snap with distance := d } }
    let full : State := { near (duringPeriod (at_ .forward 100 50 50 0 0)) 983039 with telemQ := List.replicate 16 (.diag 1) }
    errorClasses (.ctick 1) full = [.e4, .e5, .e3] ∧ errorClasses (.ctick 3) full = [.e4, .e5, .e5, .e5] ∧
    errorClasses (.ctick 0) (near (at_ .forward 100 50 50 0 0) 983040) = [] ∧
    errorClasses (.ctick 0) (near (at_ .barcodeApproach 100 50 50 0 0) 0) = [.e4] ∧
    errorClasses (.ctick 0) (near (at_ .reverse 100 50 50 0 0) 0) = [] := by decide

end Sys2Proof.Tests
end

section
/-! The state right after reset (10_state.md R45): each register group as the rows of the table give it, then the whole
table. -/

namespace Sys2Proof.Machine

/-- The encoder rows of the reset table. -/
theorem EncoderRegs.reset_eq_table : EncoderRegs.reset = ⟨0, 0, false, false, 0, 0⟩ := rfl

/-- The controller rows of the reset table, for any value of the gains, which the table leaves unspecified. -/
theorem ControllerRegs.reset_eq_table (g : Gains) :
    ControllerRegs.reset g = ⟨.idle, 0, 0, 0, 0, 0, g, 0, 0, 0⟩ := rfl

/-- The barcode rows of the reset table, the cells of the two width registers written out. -/
theorem BarcodeRegs.reset_eq_table :
    BarcodeRegs.reset = ⟨.idle, 0, 0, #v[0, 0, 0, 0, 0], #v[0, 0, 0, 0], false, 0, false, []⟩ := rfl

@[simp] theorem State.reset_enc : State.reset.enc = EncoderRegs.reset := rfl
@[simp] theorem State.reset_ctl : State.reset.ctl = ControllerRegs.reset Gains.zero := rfl
@[simp] theorem State.reset_bc : State.reset.bc = BarcodeRegs.reset := rfl
@[simp] theorem State.reset_cmdQ : State.reset.cmdQ = [] := rfl
@[simp] theorem State.reset_telemQ : State.reset.telemQ = [] := rfl
@[simp] theorem State.reset_actOut : State.reset.actOut = [] := rfl

/-- Settles O7, one register group of the table at a time. -/
theorem resetStateHasTableValues : Obligations.ResetStateHasTableValues := by
  refine ⟨?encoder, ?controller, ?barcode, State.reset_cmdQ, State.reset_telemQ, State.reset_actOut⟩
  case encoder => rw [State.reset_enc, EncoderRegs.reset_eq_table]
  case controller => rw [State.reset_ctl, ControllerRegs.reset_eq_table]
  case barcode => rw [State.reset_bc, BarcodeRegs.reset_eq_table]

end Sys2Proof.Machine
end

section
/-! Reserved words (30_encoding.md R101, R102): first what the decoder answers on a reserved operation code or mode
character, then the two commands that decode but ignore a reserved operand, then the poll and the step that meet them. -/

namespace Sys2Proof

/-- A byte that reads at least `k` is none of the bytes below `k`. -/
theorem Byte.ne_of_toNat_lt_of_le {op b : Byte} {k : Nat} (hb : b.toNat < k) (hop : k ≤ op.toNat) : op ≠ b := by
  rintro rfl
  exact absurd hb (Nat.not_lt.mpr hop)

/-! ## The decoder -/

/-- R101. -/
theorem decodeEvent_of_reserved_op {w : EventWord} (h : 0x08 ≤ (w.extractLsb' 72 8).toNat) :
    decodeEvent w = .error (.reservedEvent (w.extractLsb' 72 8)) := by
  have hne (b : Byte) (hb : b.toNat < 0x08) : w.extractLsb' 72 8 ≠ b := Byte.ne_of_toNat_lt_of_le hb h
  simp [decodeEvent, hne]

variable {chars : ModeChars} {w : CommandWord}

/-- R102 a. -/
theorem decodeCommand_of_reserved_op (h : w.extractLsb' 40 8 = 0x00#8 ∨ 0x06 ≤ (w.extractLsb' 40 8).toNat) :
    decodeCommand chars w = .error (.reservedCommand (w.extractLsb' 40 8) (w.extractLsb' 32 8)) := by
  rcases h with hzero | hhigh
  · simp [decodeCommand, hzero]
  · have hne (b : Byte) (hb : b.toNat < 0x06) : w.extractLsb' 40 8 ≠ b := Byte.ne_of_toNat_lt_of_le hb hhigh
    simp [decodeCommand, hne]

/-- R102 b. -/
theorem decodeCommand_of_reserved_mode (hop : w.extractLsb' 40 8 = 0x01#8)
    (hsub : w.extractLsb' 32 8 ∉ [chars.idle, chars.forward, chars.barcodeApproach, chars.turn]) :
    decodeCommand chars w = .error (.reservedCommand (w.extractLsb' 40 8) (w.extractLsb' 32 8)) := by
  simp only [List.mem_cons, List.not_mem_nil, or_false, not_or] at hsub
  obtain ⟨hidle, hforward, happroach, hturn⟩ := hsub
  simp [decodeCommand, ModeChars.of, hop, hidle, hforward, happroach, hturn]

theorem decodeCommand_of_op_setticks (h : w.extractLsb' 40 8 = 0x02#8) :
    decodeCommand chars w = .ok (.setticks (w.extractLsb' 0 32)) := by
  simp [decodeCommand, h]

theorem decodeCommand_of_op_setgain (h : w.extractLsb' 40 8 = 0x04#8) :
    decodeCommand chars w = .ok (.setgain (w.extractLsb' 32 8) (w.extractLsb' 0 32)) := by
  simp [decodeCommand, h]

end Sys2Proof

namespace Sys2Proof.Machine

/-! ## The commands with a reserved operand -/

theorem Gains.set_of_reserved_selector (g : Gains) {sel : Byte} (v : Q16) (h : 5 < sel.toNat) : g.set sel v = g := by
  obtain ⟨k, hk⟩ : ∃ k, sel.toNat = k + 6 := Nat.exists_eq_add_of_le' h
  simp [Gains.set, hk]

theorem State.setGains_self (s : State) : s.setGains s.ctl.gains = s := rfl

/-- R102 c. -/
theorem cmdSetgain_of_reserved_selector {sel : Byte} (v : Q16) (s : State) (h : 5 < sel.toNat) :
    cmdSetgain sel v s = s := by
  rw [cmdSetgain, Gains.set_of_reserved_selector _ v h, State.setGains_self]

/-- R102 d. -/
theorem cmdSetticks_of_neg {n : BitVec 32} (s : State) (h : n.toInt < 0) : cmdSetticks n s = s :=
  if_neg (not_le.mpr h)

/-! ## The poll -/

section Poll
variable {s : State} {w : CommandWord} {rest : List CommandWord}

theorem poll_of_decode_ok {c : Command} (hq : s.cmdQ = w :: rest) (hd : decodeCommand s.par.modeChars w = .ok c) :
    poll s = runCommand c { s with cmdQ := rest } := by
  simp [poll, runWord, hq, hd]

theorem poll_of_decode_error {e : DecodeError} (hq : s.cmdQ = w :: rest)
    (hd : decodeCommand s.par.modeChars w = .error e) : poll s = { s with cmdQ := rest } := by
  simp [poll, runWord, hq, hd]

/-- The poll of a word that decodes to a command whose rule changes nothing on the shortened queue. -/
theorem poll_of_runCommand_eq_self {c : Command} (hq : s.cmdQ = w :: rest)
    (hd : decodeCommand s.par.modeChars w = .ok c)
    (hc : runCommand c { s with cmdQ := rest } = { s with cmdQ := rest }) : poll s = { s with cmdQ := rest } :=
  (poll_of_decode_ok hq hd).trans hc

end Poll

/-! ## The step -/

theorem step_of_decodeEvent_error {s : State} {w : EventWord} {rest : List PortWord} {e : DecodeError}
    (hi : s.inbox = .event w :: rest) (hd : decodeEvent w = .error e) : step s = .next { s with inbox := rest } := by
  simp [step, stepWord, decode, execReserved, hi, hd]

/-- Settles O3, one kind of reserved word at a time: the first two kinds do not decode, the last two decode to a command
that ignores its operand. -/
theorem reservedWordsChangeNothing : Obligations.ReservedWordsChangeNothing := by
  refine ⟨fun s w rest hi hop => step_of_decodeEvent_error hi (decodeEvent_of_reserved_op hop), ?_⟩
  rintro s w rest hq (hop | ⟨hop, hsub⟩ | ⟨hop, hsel⟩ | ⟨hop, hneg⟩)
  case inl => exact poll_of_decode_error hq (decodeCommand_of_reserved_op hop)
  case inr.inl => exact poll_of_decode_error hq (decodeCommand_of_reserved_mode hop hsub)
  case inr.inr.inl =>
    exact poll_of_runCommand_eq_self hq (decodeCommand_of_op_setgain hop) (cmdSetgain_of_reserved_selector _ _ hsel)
  case inr.inr.inr =>
    exact poll_of_runCommand_eq_self hq (decodeCommand_of_op_setticks hop) (cmdSetticks_of_neg _ hneg)

end Sys2Proof.Machine
end

section
/-! The snapshot (40_snapshot_sampler.md R121): the SNAP word read back field by field, the publication of one record, and the
class that an incomplete publication reports. -/

namespace Sys2Proof

/-! ## The word -/

variable {w : EventWord}

/-- The row of SNAP in the table of 30_encoding.md R92. -/
theorem decodeEvent_of_op_snap (h : w.extractLsb' 72 8 = 0x04) :
    decodeEvent w = .ok (.snap
      { headingValid  := (w.extractLsb' 64 8).getLsbD 0
        distanceValid := (w.extractLsb' 64 8).getLsbD 1
        leftValid     := (w.extractLsb' 64 8).getLsbD 2
        rightValid    := (w.extractLsb' 64 8).getLsbD 3
        leftBlack     := (w.extractLsb' 64 8).getLsbD 4
        rightBlack    := (w.extractLsb' 64 8).getLsbD 5
        heading       := w.extractLsb' 32 32
        distance      := w.extractLsb' 0 32 }) := by
  simp [decodeEvent, h]

/-- The heading of a SNAP word stands in the high half of its operand. -/
theorem eventWord_snap_heading (op sub : Byte) (heading distance : Q16) :
    (eventWord op sub (heading ++ distance)).extractLsb' 32 32 = heading := by
  rw [eventWord_high, BitVec.extractLsb'_append_eq_left]

/-- The distance of a SNAP word stands in the low half of its operand. -/
theorem eventWord_snap_distance (op sub : Byte) (heading distance : Q16) :
    (eventWord op sub (heading ++ distance)).extractLsb' 0 32 = distance := by
  rw [eventWord_low _ _ _ 32 (by decide), BitVec.extractLsb'_append_eq_right]

/-- The word of a SNAP reads back as its operands. -/
theorem decodeEvent_snap_word (a : SnapArgs) :
    decodeEvent (eventWord 0x04 a.sub (a.heading ++ a.distance)) = .ok (.snap a) := by
  obtain ⟨headingValid, distanceValid, leftValid, rightValid, leftBlack, rightBlack⟩ := a.sub_bits
  rw [decodeEvent_of_op_snap (eventWord_op _ _ _), eventWord_sub, eventWord_snap_heading, eventWord_snap_distance,
    headingValid, distanceValid, leftValid, rightValid, leftBlack, rightBlack]

end Sys2Proof

namespace Sys2Proof.Machine

/-! ## The publication -/

section Publish
variable (r : SnapshotRegs) (a : SnapArgs)

@[simp] theorem SnapshotRegs.publish_heading :
    (r.publish a).heading = if a.headingValid then a.heading else r.heading := rfl
@[simp] theorem SnapshotRegs.publish_distance :
    (r.publish a).distance = if a.distanceValid then a.distance else r.distance := rfl
@[simp] theorem SnapshotRegs.publish_leftBlack :
    (r.publish a).leftBlack = if a.leftValid then a.leftBlack else r.leftBlack := rfl
@[simp] theorem SnapshotRegs.publish_rightBlack :
    (r.publish a).rightBlack = if a.rightValid then a.rightBlack else r.rightBlack := rfl

end Publish

/-- SNAP replaces the snapshot by the published record, and nothing else. -/
theorem exec_snap (a : SnapArgs) (s : State) : exec (.snap a) s = .next { s with snap := s.snap.publish a } := rfl

/-! ## The error class -/

theorem errorClasses_snap (a : SnapArgs) (s : State) :
    errorClasses (.snap a) s =
      if a.headingValid && a.distanceValid && a.leftValid && a.rightValid then [] else [.e1] := rfl

/-- E1 is reported exactly when one of the four fields was not sampled. -/
theorem e1_mem_errorClasses_snap_iff (a : SnapArgs) (s : State) :
    .e1 ∈ errorClasses (.snap a) s ↔
      (a.headingValid && a.distanceValid && a.leftValid && a.rightValid) = false := by
  rw [errorClasses_snap]
  cases a.headingValid && a.distanceValid && a.leftValid && a.rightValid
  case false => simp
  case true => simp

/-- Settles O20: the word by `decodeEvent_snap_word`, the next state by `exec_snap` with one equation for each field of the
published record, the class by `e1_mem_errorClasses_snap_iff`. -/
theorem snapHoldsInvalidFields : Obligations.SnapHoldsInvalidFields := by
  intro a s
  refine ⟨decodeEvent_snap_word a, { s with snap := s.snap.publish a }, exec_snap a s, rfl, ?heading, ?distance, ?left, ?right,
    e1_mem_errorClasses_snap_iff a s⟩
  case heading => exact s.snap.publish_heading a
  case distance => exact s.snap.publish_distance a
  case left => exact s.snap.publish_leftBlack a
  case right => exact s.snap.publish_rightBlack a

end Sys2Proof.Machine
end

section
/-! The encoder edges (41_encoder.md R130 to R135): the words of LEDGE and REDGE read back, the debounce condition with its
complement, the modular count, and what an edge of either wheel does when it is counted and when it is dropped. -/

namespace Sys2Proof

/-! ## The words -/

section Word
variable {w : EventWord}

/-- The row of LEDGE in the table of 30_encoding.md R92. -/
theorem decodeEvent_of_op_ledge (h : w.extractLsb' 72 8 = 0x01) :
    decodeEvent w = .ok (.ledge (w.extractLsb' 0 64)) := by
  simp [decodeEvent, h]

/-- The row of REDGE in the table of 30_encoding.md R92. -/
theorem decodeEvent_of_op_redge (h : w.extractLsb' 72 8 = 0x02) :
    decodeEvent w = .ok (.redge (w.extractLsb' 0 64)) := by
  simp [decodeEvent, h]

end Word

/-- The `sub` byte of a LEDGE word is ignored. -/
theorem decodeEvent_ledge_word (sub : Byte) (t : Time) : decodeEvent (eventWord 0x01 sub t) = .ok (.ledge t) := by
  rw [decodeEvent_of_op_ledge (eventWord_op _ _ _), eventWord_arg]

/-- The `sub` byte of a REDGE word is ignored. -/
theorem decodeEvent_redge_word (sub : Byte) (t : Time) : decodeEvent (eventWord 0x02 sub t) = .ok (.redge t) := by
  rw [decodeEvent_of_op_redge (eventWord_op _ _ _), eventWord_arg]

end Sys2Proof

namespace Sys2Proof.Machine

/-! ## The debounce condition and the count -/

/-- The complement of R130: an edge is dropped when its wheel has counted one less than `ENC_DEBOUNCE` units before. -/
theorem not_qualifies_iff {debounce : Nat} {seen : Bool} {lastT t : Time} :
    ¬ qualifies debounce seen lastT t ↔ seen = true ∧ (t - lastT).toNat < debounce := by
  rw [not_or, Bool.not_eq_false, Nat.not_le]

/-- R135: a count goes up by 1 modulo 2^64. -/
theorem count_add_one_eq_ofNat (count : BitVec 64) :
    count + 1 = BitVec.ofNat 64 ((count.toNat + 1) % 2 ^ 64) := by
  apply BitVec.eq_of_toNat_eq
  rw [BitVec.toNat_add, BitVec.toNat_ofNat, Nat.mod_mod]
  rfl

/-! ## The edges -/

section Edge
variable {t : Time} {s : State}

/-- R131, the edge that counts. -/
theorem exec_ledge_of_qualifies (h : qualifies s.par.encDebounce s.enc.lSeen s.enc.lLastT t) :
    exec (.ledge t) s =
      .next { s with enc := { s.enc with leftTicks := s.enc.leftTicks + 1, lSeen := true, lLastT := t } } :=
  if_pos h

/-- R131, the dropped edge. -/
theorem exec_ledge_of_not_qualifies (h : ¬ qualifies s.par.encDebounce s.enc.lSeen s.enc.lLastT t) :
    exec (.ledge t) s = .next s :=
  if_neg h

/-- R132, the edge that counts. -/
theorem exec_redge_of_qualifies (h : qualifies s.par.encDebounce s.enc.rSeen s.enc.rLastT t) :
    exec (.redge t) s =
      .next { s with enc := { s.enc with rightTicks := s.enc.rightTicks + 1, rSeen := true, rLastT := t } } :=
  if_pos h

/-- R132, the dropped edge. -/
theorem exec_redge_of_not_qualifies (h : ¬ qualifies s.par.encDebounce s.enc.rSeen s.enc.rLastT t) :
    exec (.redge t) s = .next s :=
  if_neg h

end Edge

theorem errorClasses_ledge (t : Time) (s : State) : errorClasses (.ledge t) s = [] := rfl

theorem errorClasses_redge (t : Time) (s : State) : errorClasses (.redge t) s = [] := rfl

/-- Settles O17: the two exclusive outcomes are the two sides of the debounce condition of the left wheel. -/
theorem ledgeCountsQualifyingEdges : Obligations.LedgeCountsQualifyingEdges := by
  intro t s
  refine ⟨fun sub => decodeEvent_ledge_word sub t, errorClasses_ledge t s, ?counted, ?dropped⟩
  case counted =>
    intro hqualifies
    rw [exec_ledge_of_qualifies hqualifies, count_add_one_eq_ofNat]
  case dropped =>
    intro hseen hrecent
    exact exec_ledge_of_not_qualifies (not_qualifies_iff.mpr ⟨hseen, hrecent⟩)

/-- Settles O18: the two exclusive outcomes are the two sides of the debounce condition of the right wheel. -/
theorem redgeCountsQualifyingEdges : Obligations.RedgeCountsQualifyingEdges := by
  intro t s
  refine ⟨fun sub => decodeEvent_redge_word sub t, errorClasses_redge t s, ?counted, ?dropped⟩
  case counted =>
    intro hqualifies
    rw [exec_redge_of_qualifies hqualifies, count_add_one_eq_ofNat]
  case dropped =>
    intro hseen hrecent
    exact exec_redge_of_not_qualifies (not_qualifies_iff.mpr ⟨hseen, hrecent⟩)

end Sys2Proof.Machine
end

section
/-! The rising edge of the photodetector (42_barcode.md R151, R152, R158): its word read back, what it does in each state of the
engine, and the space width that it records. -/

namespace Sys2Proof

/-! ## The word -/

/-- The row of PEDGE.R in the table of 30_encoding.md R92. -/
theorem decodeEvent_of_op_pedgeR {w : EventWord} (hop : w.extractLsb' 72 8 = 0x03)
    (hsub : (w.extractLsb' 64 8).getLsbD 0 = true) : decodeEvent w = .ok (.pedgeR (w.extractLsb' 0 64)) := by
  simp only [decodeEvent, hop, hsub]
  rfl

/-- The bits of a PEDGE.R word's `sub` byte above bit 0 are ignored. -/
theorem decodeEvent_pedgeR_word (hi : BitVec 7) (t : Time) :
    decodeEvent (eventWord 0x03 (hi ++ 1#1) t) = .ok (.pedgeR t) := by
  have hrising : (hi ++ 1#1).getLsbD 0 = true := by rw [BitVec.getLsbD_append]; rfl
  rw [decodeEvent_of_op_pedgeR (eventWord_op _ _ _) (by rwa [eventWord_sub]), eventWord_arg]

end Sys2Proof

namespace Sys2Proof.Machine

/-! ## The width registers -/

/-- A bar goes into the cell that half the edge count names (R155). -/
theorem recordBar_barW_getElem (b : BarcodeRegs) (policy : SeedPolicy) (t : Time) (i : Fin 5) :
    (b.recordBar policy t).barW[i] = if i.val = b.edgeCount.val / 2 then t - b.prevEdgeT else b.barW[i] := by
  simp only [recordBar_barW, Fin.getElem_fin, Vector.getElem_setIfInBounds, eq_comm]

/-- A space goes into the cell that half the edge count names (R152). -/
theorem recordSpace_spaceW_getElem (b : BarcodeRegs) (t : Time) (j : Fin 4) :
    (b.recordSpace t).spaceW[j] = if j.val = b.edgeCount.val / 2 then t - b.prevEdgeT else b.spaceW[j] := by
  simp only [recordSpace_spaceW, Fin.getElem_fin, Vector.getElem_setIfInBounds, eq_comm]

/-- A space that is due is never the ninth interval. -/
theorem recordSpace_edgeCount_val {b : BarcodeRegs} (t : Time) (hdue : b.spaceDue) :
    (b.recordSpace t).edgeCount.val = b.edgeCount.val + 1 := by
  rw [recordSpace_edgeCount, nextCount_val b (by omega)]

/-! ## The edge -/

theorem exec_pedgeR_of_idle {s : State} (t : Time) (h : s.bc.state = .idle) :
    exec (.pedgeR t) s = .next (s.setBarcode { s.bc with state := .accumulating, edgeCount := 0, prevEdgeT := t }) := by
  simp only [exec, execPedgeR, h]

theorem exec_pedgeR_of_spaceDue {s : State} (t : Time) (h : s.bc.state = .accumulating) (hdue : s.bc.spaceDue) :
    exec (.pedgeR t) s = .next (s.setBarcode (s.bc.recordSpace t)) := by
  simp only [exec, execPedgeR, h, if_pos hdue]

theorem exec_pedgeR_of_not_spaceDue {s : State} (t : Time) (h : s.bc.state = .accumulating) (hdue : ¬ s.bc.spaceDue) :
    exec (.pedgeR t) s = .next s := by
  simp only [exec, execPedgeR, h, if_neg hdue]

theorem errorClasses_pedgeR (t : Time) (s : State) : errorClasses (.pedgeR t) s = [] := rfl

/-- Settles O21: one equation of the edge for each of the three exclusive outcomes. -/
theorem pedgeRStartsSymbolOrMeasuresSpace : Obligations.PedgeRStartsSymbolOrMeasuresSpace := by
  intro t s
  refine ⟨fun hi => decodeEvent_pedgeR_word hi t, errorClasses_pedgeR t s, ?start, ?space, ?ignored⟩
  case start => exact exec_pedgeR_of_idle t
  case space =>
    intro hstate hdue
    exact ⟨s.setBarcode (s.bc.recordSpace t), exec_pedgeR_of_spaceDue t hstate hdue, rfl,
      recordSpace_edgeCount_val t hdue, recordSpace_spaceW_getElem s.bc t⟩
  case ignored =>
    intro hstate heven
    exact exec_pedgeR_of_not_spaceDue t hstate (by omega)

end Sys2Proof.Machine
end

section
/-! The ninth interval (42_barcode.md R160 to R169): the window as it stands once the last bar is in, the registers and the channel
after the symbol, and the classes its record reports. What the symbol is, `classify_cases` says. -/

namespace Sys2Proof.Machine

/-! ## The completed window -/

/-- The ninth interval is never the first of its symbol, so that the policy plays no part in its seed (R156). -/
theorem recordBar_threshold_of_ninth {b : BarcodeRegs} (policy : SeedPolicy) (t : Time) (h : b.edgeCount.val = 8) :
    (b.recordBar policy t).threshold =
      if b.threshValid = false then BitVec.ofNat 65 (2 * (t - b.prevEdgeT).toNat) else b.threshold := by
  rw [recordBar_threshold]
  rcases seed_cases b policy (t - b.prevEdgeT) with ⟨hinvalid | ⟨-, hfirst⟩, hseed⟩ | ⟨hvalid, -, hseed⟩
  · rw [hseed, if_pos hinvalid]
  · omega
  · rw [hseed, if_neg (by simp [hvalid])]

/-- The ninth interval is the width of the last bar. -/
theorem recordBar_barW_of_ninth {b : BarcodeRegs} (policy : SeedPolicy) (t : Time) (h : b.edgeCount.val = 8) (i : Fin 5) :
    (b.recordBar policy t).barW[i] = if i.val = 4 then t - b.prevEdgeT else b.barW[i] := by
  rw [recordBar_barW_getElem, h]

/-! ## The registers and the channel after the symbol -/

section Symbol
variable (b : BarcodeRegs) (assembledMax : Nat)

/-- A symbol leaves the edge timestamp and the threshold pair alone (R167, R168). -/
theorem applySymbol_frame :
    (b.applySymbol assembledMax).prevEdgeT = b.prevEdgeT ∧ (b.applySymbol assembledMax).threshValid = b.threshValid ∧
    (b.applySymbol assembledMax).threshold = b.threshold := by
  unfold BarcodeRegs.applySymbol
  cases b.classify with
  | start r => exact ⟨rfl, rfl, rfl⟩
  | notFound => exact ⟨rfl, rfl, rfl⟩
  | endScan => exact ⟨rfl, rfl, rfl⟩
  | char c => dsimp only; split <;> exact ⟨rfl, rfl, rfl⟩

/-- R169, the cells of the two width registers written out. -/
theorem clearWindow_eq :
    b.clearWindow =
      ⟨.idle, 0, b.prevEdgeT, #v[0, 0, 0, 0, 0], #v[0, 0, 0, 0], b.threshValid, b.threshold, b.reversed, b.assembled⟩ := rfl

end Symbol

section Complete
variable (s : State) (b : BarcodeRegs)

@[simp] theorem completeSymbol_reversed :
    (s.completeSymbol b).bc.reversed = (b.applySymbol s.par.assembledMax).reversed := by
  rw [completeSymbol_eq]; rfl
@[simp] theorem completeSymbol_assembled :
    (s.completeSymbol b).bc.assembled = (b.applySymbol s.par.assembledMax).assembled := by
  rw [completeSymbol_eq]; rfl
@[simp] theorem completeSymbol_telemQ :
    (s.completeSymbol b).telemQ = b.symbolRecord.elim s.telemQ (pushBounded s.par.telemDepth s.telemQ) := by
  rw [completeSymbol_eq]

theorem completeSymbol_frame :
    s.completeSymbol b = { s with bc := (s.completeSymbol b).bc, telemQ := (s.completeSymbol b).telemQ } := by
  rw [completeSymbol_eq]

/-- Every barcode register but the two of the scan, after a complete symbol. -/
theorem completeSymbol_bc :
    (s.completeSymbol b).bc =
      ⟨.idle, 0, b.prevEdgeT, #v[0, 0, 0, 0, 0], #v[0, 0, 0, 0], b.threshValid, b.threshold,
        (s.completeSymbol b).bc.reversed, (s.completeSymbol b).bc.assembled⟩ := by
  obtain ⟨hprev, hvalid, hthreshold⟩ := applySymbol_frame b s.par.assembledMax
  rw [completeSymbol_eq, clearWindow_eq, hprev, hvalid, hthreshold]

end Complete

/-! ## The edge -/

section Ninth
variable {s : State} (t : Time)

theorem exec_pedgeF_of_ninth (hstate : s.bc.state = .accumulating) (hcount : s.bc.edgeCount.val = 8) :
    exec (.pedgeF t) s = .next (s.completeSymbol (s.bc.recordBar s.par.seedPolicy t)) := by
  have hnotDue : ¬ s.bc.spaceDue := by omega
  simp only [exec, execPedgeF, hstate, if_neg hnotDue, if_pos hcount]

/-- The ninth interval reports what the push of its symbol's record does. -/
theorem errorClasses_pedgeF_of_ninth (hstate : s.bc.state = .accumulating) (hcount : s.bc.edgeCount.val = 8) :
    errorClasses (.pedgeF t) s = (s.bc.recordBar s.par.seedPolicy t).symbolRecord.elim [] (recordReport s) := by
  simp only [errorClasses, pedgeFReport, hstate, if_pos hcount]
  cases (s.bc.recordBar s.par.seedPolicy t).symbolRecord <;> rfl

end Ninth

/-- Settles O23: the window is the one with the last bar recorded; of the five exclusive outcomes the one that `classify_cases`
gives holds, and the conditions of the other four contradict its own. -/
theorem ninthIntervalClassifies : Obligations.NinthIntervalClassifies := by
  intro t s hstate hcount
  refine ⟨s.bc.recordBar s.par.seedPolicy t, s.completeSymbol (s.bc.recordBar s.par.seedPolicy t),
    ⟨recordBar_prevEdgeT .., recordBar_barW_of_ninth _ t hcount, recordBar_spaceW .., recordBar_threshValid ..,
      recordBar_threshold_of_ninth _ t hcount⟩,
    exec_pedgeF_of_ninth t hstate hcount, completeSymbol_frame .., ?registers, ?outcome⟩
  case registers => rw [completeSymbol_bc, recordBar_prevEdgeT, recordBar_threshValid]
  case outcome =>
    have hassembled := recordBar_assembled s.bc s.par.seedPolicy t
    have hreversed := recordBar_reversed s.bc s.par.seedPolicy t
    simp only [completeSymbol_reversed, completeSymbol_assembled, completeSymbol_telemQ,
      errorClasses_pedgeF_of_ninth t hstate hcount, ← hassembled, ← hreversed]
    generalize s.bc.recordBar s.par.seedPolicy t = b
    rcases classify_cases b s.par.assembledMax with
      ⟨hfirst, hn, hrecord, happly⟩ | ⟨hfirst, hn, hr, hrecord, happly⟩ | ⟨hfirst, hn, hr, hrecord, happly⟩ |
      ⟨hlater, hc, hrecord, happly⟩ | ⟨c, rfl, hlater, hc, hrecord, happly⟩
    all_goals rw [hrecord, happly]
    · exact ⟨fun _ _ => ⟨rfl, rfl, rfl, rfl⟩, fun _ h => absurd hn h, fun _ h => absurd hn h,
        fun h => absurd hfirst h, fun h => absurd hfirst h⟩
    · exact ⟨fun _ h => absurd h hn, fun _ _ _ => ⟨rfl, rfl, rfl, rfl⟩, fun _ _ h => absurd hr h,
        fun h => absurd hfirst h, fun h => absurd hfirst h⟩
    · exact ⟨fun _ h => absurd h hn, fun _ _ h => absurd h hr, fun _ _ _ => ⟨rfl, hfirst, rfl, rfl⟩,
        fun h => absurd hfirst h, fun h => absurd hfirst h⟩
    · exact ⟨fun h => absurd h hlater, fun h => absurd h hlater, fun h => absurd h hlater,
        fun _ _ => ⟨rfl, rfl, by rw [← List.drop_one]; rfl, rfl⟩, fun _ h => absurd hc h⟩
    · refine ⟨fun h => absurd h hlater, fun h => absurd h hlater, fun h => absurd h hlater,
        fun _ h => absurd h hc, fun _ _ => ?_⟩
      by_cases hroom : b.asmLen < s.par.assembledMax
      · rw [if_pos hroom, if_pos hroom]; exact ⟨rfl, rfl, rfl, rfl⟩
      · rw [if_neg hroom, if_neg hroom]; exact ⟨rfl, rfl, rfl, rfl⟩

end Sys2Proof.Machine
end

section
/-! CPUSH (43_commands.md R190): its word read back, the push on a channel with room and on a full one, and the class that
each reports. -/

namespace Sys2Proof

/-! ## The word -/

/-- The row of CPUSH in the table of 30_encoding.md R92. -/
theorem decodeEvent_of_op_cpush {w : EventWord} (h : w.extractLsb' 72 8 = 0x05) :
    decodeEvent w = .ok (.cpush (w.extractLsb' 0 48)) := by
  simp [decodeEvent, h]

/-- The `sub` byte of a CPUSH word and the operand bits above the command word are ignored. -/
theorem decodeEvent_cpush_word (sub : Byte) (hi : BitVec 16) (c : CommandWord) :
    decodeEvent (eventWord 0x05 sub (hi ++ c)) = .ok (.cpush c) := by
  rw [decodeEvent_of_op_cpush (eventWord_op _ _ _), eventWord_low _ _ _ 48 (by decide), BitVec.extractLsb'_append_eq_right]

end Sys2Proof

namespace Sys2Proof.Machine

/-! ## The push and its report -/

theorem exec_cpush (c : CommandWord) (s : State) :
    exec (.cpush c) s = .next { s with cmdQ := pushBounded s.par.cmdDepth s.cmdQ c } := rfl

theorem errorClasses_cpush (c : CommandWord) (s : State) :
    errorClasses (.cpush c) s = pushReport s.par.cmdDepth s.cmdQ := rfl

theorem pushReport_of_room {α : Type} {cap : Nat} {q : List α} (h : q.length < cap) : pushReport cap q = [] := if_pos h

theorem pushReport_of_full {α : Type} {cap : Nat} {q : List α} (h : cap ≤ q.length) : pushReport cap q = [.e3] :=
  if_neg (Nat.not_lt.mpr h)

/-- Settles O28: a channel with room and a full one are the two sides of the bounded push and of its report. -/
theorem cpushAppendsOrDrops : Obligations.CpushAppendsOrDrops := by
  intro c s
  refine ⟨fun sub hi => decodeEvent_cpush_word sub hi c, ?room, ?full⟩
  case room =>
    intro hroom
    rw [exec_cpush, errorClasses_cpush, pushBounded_of_room c hroom, pushReport_of_room hroom]
    exact ⟨rfl, rfl⟩
  case full =>
    intro hfull
    rw [exec_cpush, errorClasses_cpush, pushBounded_of_full c hfull, pushReport_of_full hfull]
    exact ⟨rfl, rfl⟩

end Sys2Proof.Machine
end

section
/-! The words of the commands (30_encoding.md R94): each row of the table with its ignored bits of any value, and the canonical
word of every command read back. -/

namespace Sys2Proof

variable (chars : ModeChars)

/-! ## The rows of the table -/

/-- SETMODE, the `arg` ignored: the character is compared with those of the commandable modes in turn (R102 b). -/
theorem decodeCommand_setmode_word (sub : Byte) (arg : BitVec 32) :
    decodeCommand chars (commandWord 0x01 sub arg) =
      if sub = chars.of .idle then .ok .setmodeIdle
      else if sub = chars.of .forward then .ok .setmodeFwd
      else if sub = chars.of .barcodeApproach then .ok .setmodeBa
      else if sub = chars.of .turn then .ok .setmodeTurn
      else .error (.reservedCommand 0x01 sub) := by
  simp [decodeCommand]

/-- SETTICKS, the `sub` byte ignored. -/
theorem decodeCommand_setticks_word (sub : Byte) (n : BitVec 32) :
    decodeCommand chars (commandWord 0x02 sub n) = .ok (.setticks n) := by
  have hop : (commandWord 0x02 sub n).extractLsb' 40 8 = 0x02#8 := commandWord_op ..
  rw [decodeCommand_of_op_setticks hop, commandWord_arg]

/-- SETBEAR, the `sub` byte ignored. -/
theorem decodeCommand_setbear_word (sub : Byte) (delta : BitVec 32) :
    decodeCommand chars (commandWord 0x03 sub delta) = .ok (.setbear delta) := by
  simp [decodeCommand]

theorem decodeCommand_setgain_word (sel : Byte) (v : Q16) :
    decodeCommand chars (commandWord 0x04 sel v) = .ok (.setgain sel v) := by
  have hop : (commandWord 0x04 sel v).extractLsb' 40 8 = 0x04#8 := commandWord_op ..
  rw [decodeCommand_of_op_setgain hop, commandWord_sub, commandWord_arg]

/-- RSTENC, the `sub` byte and the `arg` ignored. -/
theorem decodeCommand_rstenc_word (sub : Byte) (arg : BitVec 32) :
    decodeCommand chars (commandWord 0x05 sub arg) = .ok .rstenc := by
  simp [decodeCommand]

/-! ## The canonical words -/

variable {chars}

/-- An injective `MODE_CHAR` tells the four commandable modes apart, each from those that the decoder tries before it. -/
theorem ModeChars.commandable_ne (h : chars.toList.Nodup) :
    chars.of .forward ≠ chars.of .idle ∧
    (chars.of .barcodeApproach ≠ chars.of .idle ∧ chars.of .barcodeApproach ≠ chars.of .forward) ∧
    (chars.of .turn ≠ chars.of .idle ∧ chars.of .turn ≠ chars.of .forward ∧
      chars.of .turn ≠ chars.of .barcodeApproach) := by
  simp only [ModeChars.toList, List.nodup_cons, List.mem_cons, not_or] at h
  obtain ⟨⟨hif, hib, -, -, hit, -⟩, ⟨hfb, -, -, hft, -⟩, ⟨-, -, hbt, -⟩, -⟩ := h
  exact ⟨Ne.symm hif, ⟨Ne.symm hib, Ne.symm hfb⟩, Ne.symm hit, Ne.symm hft, Ne.symm hbt⟩

/-- With an injective `MODE_CHAR` the word of a command decodes to the command. -/
theorem decodeCommand_encodeCommand (h : chars.toList.Nodup) (c : Command) :
    decodeCommand chars (encodeCommand chars c) = .ok c := by
  obtain ⟨hforward, ⟨hbaIdle, hbaForward⟩, hturnIdle, hturnForward, hturnBa⟩ := ModeChars.commandable_ne h
  cases c with
  | setmodeIdle => rw [encodeCommand, decodeCommand_setmode_word, if_pos rfl]
  | setmodeFwd => rw [encodeCommand, decodeCommand_setmode_word, if_neg hforward, if_pos rfl]
  | setmodeBa => rw [encodeCommand, decodeCommand_setmode_word, if_neg hbaIdle, if_neg hbaForward, if_pos rfl]
  | setmodeTurn =>
    rw [encodeCommand, decodeCommand_setmode_word, if_neg hturnIdle, if_neg hturnForward, if_neg hturnBa, if_pos rfl]
  | setticks n => exact decodeCommand_setticks_word chars 0 n
  | setbear delta => exact decodeCommand_setbear_word chars 0 delta
  | setgain sel v => exact decodeCommand_setgain_word chars sel v
  | rstenc => exact decodeCommand_rstenc_word chars 0 0

end Sys2Proof
end

section
/-! The poll of the Command Channel (43_commands.md R191): a command run alone is its rule, the poll is that rule on the state
without the word. -/

namespace Sys2Proof.Machine

/-- The three steps of a control tick (44_controller.md R211). -/
theorem exec_ctick (lockFail : Byte) (s : State) :
    exec (.ctick lockFail) s = .next (telemetryStep lockFail (behave (poll s))) := rfl

/-- The meaning of a command's instruction is the rule that a popped word runs. -/
theorem exec_toInstr (c : Command) (s : State) : exec c.toInstr s = .next (runCommand c s) := by
  cases c <;> rfl

theorem poll_of_empty {s : State} (h : s.cmdQ = []) : poll s = s := by
  simp [poll, h]

/-- R191, through the instruction that the oldest word decodes to. -/
theorem exec_toInstr_eq_poll {s : State} {w : CommandWord} {c : Command} {rest : List CommandWord}
    (hq : s.cmdQ = w :: rest) (hd : decodeCommand s.par.modeChars w = .ok c) :
    exec c.toInstr { s with cmdQ := rest } = .next (poll s) := by
  rw [exec_toInstr, poll_of_decode_ok hq hd]

/-- Settles O32: a reserved word and an empty queue by the poll's own equations, a word that decodes by `exec_toInstr_eq_poll`,
and the canonical word as one of those by `decodeCommand_encodeCommand`. -/
theorem pollRunsOldestCommand : Obligations.PollRunsOldestCommand := by
  refine ⟨exec_ctick, ?reserved, fun _ => poll_of_empty, ?decoded, ?canonical⟩
  case reserved =>
    intro s w rest e hq hd
    exact poll_of_decode_error hq hd
  case decoded =>
    intro s w c rest hq hd
    exact exec_toInstr_eq_poll hq hd
  case canonical =>
    intro s c rest hvalid hq
    obtain ⟨-, -, -, -, -, -, -, -, -, -, -, -, -, -, -, -, hnodup⟩ := hvalid
    exact exec_toInstr_eq_poll hq (decodeCommand_encodeCommand hnodup c)

end Sys2Proof.Machine
end

section
/-! The commands with an operand and RSTENC (43_commands.md R196 to R199): for each, its next state as one equation and the
arithmetic of the value it writes. -/

namespace Sys2Proof.Machine

/-! ## The classes: no command word reports one (60_exceptions.md R300) -/

theorem errorClasses_setticks (n : BitVec 32) (s : State) : errorClasses (.setticks n) s = [] := rfl
theorem errorClasses_setbear (delta : BitVec 32) (s : State) : errorClasses (.setbear delta) s = [] := rfl
theorem errorClasses_setgain (sel : Byte) (v : Q16) (s : State) : errorClasses (.setgain sel v) s = [] := rfl
theorem errorClasses_rstenc (s : State) : errorClasses .rstenc s = [] := rfl

/-! ## SETTICKS -/

theorem exec_setticks (n : BitVec 32) (s : State) : exec (.setticks n) s = .next (cmdSetticks n s) := rfl

/-- R196: a non-negative operand is written zero-extended. -/
theorem cmdSetticks_of_nonneg {n : BitVec 32} (s : State) (h : 0 ≤ n.toInt) :
    cmdSetticks n s = s.setTarget (BitVec.ofNat 64 n.toNat) :=
  (if_pos h).trans (congrArg s.setTarget (BitVec.ofNat_toNat 64 n).symm)

/-- Settles O35: the two exclusive outcomes are the two signs of the operand. -/
theorem setticksWritesTarget : Obligations.SetticksWritesTarget := by
  intro n s
  refine ⟨fun chars sub => decodeCommand_setticks_word chars sub n, errorClasses_setticks n s, ?written, ?ignored⟩
  case written =>
    intro hnonneg
    rw [exec_setticks, cmdSetticks_of_nonneg s hnonneg, State.setTarget]
  case ignored =>
    intro hneg
    rw [exec_setticks, cmdSetticks_of_neg s hneg]

/-! ## SETBEAR -/

/-- R197: only the target bearing is written. -/
theorem exec_setbear (delta : BitVec 32) (s : State) :
    exec (.setbear delta) s = .next { s with ctl := { s.ctl with
      targetBearing := BitVec.ofInt 16 ((s.snap.heading.toInt / 65536 + delta.toInt) % 360) } } := rfl

/-- A residue modulo 360 fits the bearing register whole. -/
theorem toNat_ofInt_emod_360 (x : Int) : ((BitVec.ofInt 16 (x % 360)).toNat : Int) = x % 360 := by
  rw [BitVec.toNat_ofInt]
  omega

/-- Settles O36: the bearing is a residue modulo 360, and the quotient it drops is the multiple of 360 between the two. -/
theorem setbearIsRelativeModulo360 : Obligations.SetbearIsRelativeModulo360 := by
  intro delta s
  refine ⟨fun chars sub => decodeCommand_setbear_word chars sub delta, errorClasses_setbear delta s, _,
    exec_setbear delta s, ?range, ?congruent⟩
  case range =>
    have hresidue := toNat_ofInt_emod_360 (s.snap.heading.toInt / 65536 + delta.toInt)
    omega
  case congruent =>
    rw [toNat_ofInt_emod_360, Int.fdiv_eq_ediv_of_nonneg _ (by decide)]
    refine ⟨-((s.snap.heading.toInt / 65536 + delta.toInt) / 360), ?_⟩
    rw [Int.emod_def, Int.mul_neg, Int.sub_eq_add_neg]

/-! ## SETGAIN -/

section Gains
/-! The six selectors of 10_state.md R29. -/

variable (g : Gains) (v : Q16)

theorem Gains.set_zero : g.set 0 v = { g with kpF := v } := rfl
theorem Gains.set_one : g.set 1 v = { g with kiF := v } := rfl
theorem Gains.set_two : g.set 2 v = { g with kdF := v } := rfl
theorem Gains.set_three : g.set 3 v = { g with kpT := v } := rfl
theorem Gains.set_four : g.set 4 v = { g with kiT := v } := rfl
theorem Gains.set_five : g.set 5 v = { g with kdT := v } := rfl

end Gains

/-- R198: only the gains are written. -/
theorem exec_setgain (sel : Byte) (v : Q16) (s : State) :
    exec (.setgain sel v) s = .next { s with ctl := { s.ctl with gains := s.ctl.gains.set sel v } } := rfl

/-- Settles O37: one equation of `Gains.set` for each selector, and none of the gains for a reserved one. -/
theorem setgainWritesOneGain : Obligations.SetgainWritesOneGain := by
  intro v s
  refine ⟨?kpF, ?kiF, ?kdF, ?kpT, ?kiT, ?kdT, ?reserved, fun sel => errorClasses_setgain sel v s,
    fun chars sel => decodeCommand_setgain_word chars sel v⟩
  case kpF => rw [exec_setgain, Gains.set_zero]
  case kiF => rw [exec_setgain, Gains.set_one]
  case kdF => rw [exec_setgain, Gains.set_two]
  case kpT => rw [exec_setgain, Gains.set_three]
  case kiT => rw [exec_setgain, Gains.set_four]
  case kdT => rw [exec_setgain, Gains.set_five]
  case reserved =>
    intro sel hreserved
    rw [exec_setgain, Gains.set_of_reserved_selector _ v hreserved]

/-! ## RSTENC -/

theorem exec_rstenc (s : State) : exec .rstenc s = .next (cmdRstenc s) := rfl

/-- R199, the two modes whose control law does not read the counts. -/
theorem cmdRstenc_of_idle_or_turn {s : State} (h : s.ctl.mode = .idle ∨ s.ctl.mode = .turn) :
    cmdRstenc s = s.setCounts 0 0 := by
  rcases h with hidle | hturn
  · simp only [cmdRstenc, hidle]
  · simp only [cmdRstenc, hturn]

/-- R199, the four other modes. -/
theorem cmdRstenc_of_ne {s : State} (hidle : s.ctl.mode ≠ .idle) (hturn : s.ctl.mode ≠ .turn) : cmdRstenc s = s := by
  unfold cmdRstenc
  cases hmode : s.ctl.mode with
  | idle => exact absurd hmode hidle
  | turn => exact absurd hmode hturn
  | forward => rfl
  | barcodeApproach => rfl
  | reverseTransition => rfl
  | reverse => rfl

/-- Settles O38: the two outcomes are `cmdRstenc_of_idle_or_turn` and `cmdRstenc_of_ne`. -/
theorem rstencOnlyInIdleAndTurn : Obligations.RstencOnlyInIdleAndTurn := by
  refine ⟨decodeCommand_rstenc_word, fun s => ⟨errorClasses_rstenc s, ?cleared, ?ignored⟩⟩
  case cleared =>
    intro hmode
    rw [exec_rstenc, cmdRstenc_of_idle_or_turn hmode, State.setCounts]
  case ignored =>
    intro hidle hturn
    rw [exec_rstenc, cmdRstenc_of_ne hidle hturn]

end Sys2Proof.Machine
end

section
/-! The speed scaling (44_controller.md R236): the floor of the rule over the integers, its two end values and its
monotonicity in the size of the control; the bound is `scaledSpeed_le`. -/

namespace Sys2Proof.Machine

/-- The model scales on the naturals; the rule's floor division on the integers gives the same value. -/
theorem scaledSpeed_eq_floor (s : State) (c : Int) : (s.scaledSpeed c : Int) = |c| * s.par.speedMax / 65536 := by
  simp [State.scaledSpeed]

@[simp] theorem scaledSpeed_one (s : State) : s.scaledSpeed 65536 = s.par.speedMax :=
  Nat.mul_div_cancel_left s.par.speedMax (by decide)

@[simp] theorem scaledSpeed_zero (s : State) : s.scaledSpeed 0 = 0 := by
  simp [State.scaledSpeed]

/-- Both steps of the scaling, the product and the floor, are monotone. -/
theorem scaledSpeed_mono (s : State) {c d : Int} (h : |c| ≤ |d|) : s.scaledSpeed c ≤ s.scaledSpeed d := by
  have hsize : c.natAbs ≤ d.natAbs := by zify; exact h
  exact Nat.div_le_div_right (Nat.mul_le_mul_right s.par.speedMax hsize)

/-- Settles O47: the floor, the bound, the two end values and the order, each by its lemma. -/
theorem speedScalingIsMonotoneAndBounded : Obligations.SpeedScalingIsMonotoneAndBounded := by
  intro s c d hc _
  have hsize : c.natAbs ≤ 65536 := by zify; exact hc
  exact ⟨scaledSpeed_eq_floor s c, scaledSpeed_le s hsize, scaledSpeed_one s, scaledSpeed_zero s, scaledSpeed_mono s⟩

end Sys2Proof.Machine
end

section
/-! TPOP (45_actuation_telemetry.md R296): its word read back, the class list, and what it hands out from an empty and from a
waiting Telemetry Channel. -/

namespace Sys2Proof

/-- The row of TPOP in the table of 30_encoding.md R92. -/
theorem decodeEvent_of_op_tpop {w : EventWord} (h : w.extractLsb' 72 8 = 0x07) : decodeEvent w = .ok .tpop := by
  simp [decodeEvent, h]

/-- The `sub` byte and the operand of a TPOP word are ignored. -/
theorem decodeEvent_tpop_word (sub : Byte) (arg : BitVec 64) : decodeEvent (eventWord 0x07 sub arg) = .ok .tpop :=
  decodeEvent_of_op_tpop (eventWord_op _ _ _)

end Sys2Proof

namespace Sys2Proof.Machine

theorem errorClasses_tpop (s : State) : errorClasses .tpop s = [] := rfl

theorem exec_tpop (s : State) : exec .tpop s = execTpop s := rfl

/-- R296 on an empty channel. -/
theorem execTpop_of_empty {s : State} (h : s.telemQ = []) : execTpop s = .next s := by
  simp only [execTpop, h]

/-- R296 on a channel with a record waiting. -/
theorem execTpop_of_cons {s : State} {r : Record} {rest : List Record} (h : s.telemQ = r :: rest) :
    execTpop s = .next { s with telemQ := rest, telemOut := s.telemOut ++ [r] } := by
  simp only [execTpop, h]

/-- Settles O29: the two outcomes are the two shapes of the queue, `execTpop_of_empty` and `execTpop_of_cons`. -/
theorem tpopTakesOldestRecord : Obligations.TpopTakesOldestRecord := by
  refine ⟨decodeEvent_tpop_word, errorClasses_tpop, ?empty, ?waiting⟩
  case empty =>
    intro s hempty
    rw [exec_tpop, execTpop_of_empty hempty]
  case waiting =>
    intro s r rest hqueue
    rw [exec_tpop, execTpop_of_cons hqueue]

end Sys2Proof.Machine
end

section
/-! RESET as an event (70_reset_and_hazards.md R330): its word read back, and the state it leaves. -/

namespace Sys2Proof

/-- The row of RESET in the table of 30_encoding.md R92. -/
theorem decodeEvent_of_op_reset {w : EventWord} (h : w.extractLsb' 72 8 = 0x00) : decodeEvent w = .ok .reset := by
  simp [decodeEvent, h]

/-- The `sub` byte and the operand of a RESET word are ignored. -/
theorem decodeEvent_reset_word (sub : Byte) (arg : BitVec 64) : decodeEvent (eventWord 0x00 sub arg) = .ok .reset :=
  decodeEvent_of_op_reset (eventWord_op _ _ _)

end Sys2Proof

namespace Sys2Proof.Machine

/-- R330 on any state: what RESET writes; every field not listed stays. -/
theorem exec_reset (s : State) :
    exec .reset s = .next
      { s with
        enc    := EncoderRegs.reset
        ctl    := ControllerRegs.reset (Gains.draw s.draws)
        snap   := SnapshotRegs.draw s.draws
        bc     := BarcodeRegs.reset
        cmdQ   := []
        telemQ := []
        draws  := s.draws + 1 } := rfl

/-- Settles O6: the word by its operation code alone, then each register group by its rows of the reset table; the queues are
written empty, and the two output streams, the parameters and the rest of the trace are not written. -/
theorem resetEventRestoresTableValues : Obligations.ResetEventRestoresTableValues := by
  refine ⟨decodeEvent_reset_word, fun s => ⟨_, exec_reset s, ?encoder, ?controller, ?barcode, rfl, rfl, rfl, rfl, rfl, rfl⟩⟩
  case encoder => exact EncoderRegs.reset_eq_table
  case controller => exact ControllerRegs.reset_eq_table (Gains.draw s.draws)
  case barcode => exact BarcodeRegs.reset_eq_table

end Sys2Proof.Machine
end

section
/-! What `exec` does, said once for each kind of row: the nine events, the commands, the actuation words and the records. Each event
has an equation for every outcome and one frame; the invariants of a step are then settled kind by kind. -/

namespace Sys2Proof

/-- The 28 rows by kind: the events one by one, and the rows of the commands, the actuation words and the records each as one case. -/
theorem Instr.kindCases {motive : Instr → Prop} (reset : motive .reset) (ledge : ∀ t, motive (.ledge t))
    (redge : ∀ t, motive (.redge t)) (pedgeR : ∀ t, motive (.pedgeR t)) (pedgeF : ∀ t, motive (.pedgeF t))
    (snap : ∀ a, motive (.snap a)) (cpush : ∀ c, motive (.cpush c)) (ctick : ∀ f, motive (.ctick f)) (tpop : motive .tpop)
    (command : ∀ c : Command, motive c.toInstr) (actuation : ∀ a : Actuation, motive a.toInstr)
    (record : ∀ r : Record, motive r.toInstr) (i : Instr) : motive i := by
  cases i with
  | reset => exact reset
  | ledge t => exact ledge t
  | redge t => exact redge t
  | pedgeR t => exact pedgeR t
  | pedgeF t => exact pedgeF t
  | snap a => exact snap a
  | cpush c => exact cpush c
  | ctick f => exact ctick f
  | tpop => exact tpop
  | setmodeIdle => exact command .setmodeIdle
  | setmodeFwd => exact command .setmodeFwd
  | setmodeBa => exact command .setmodeBa
  | setmodeTurn => exact command .setmodeTurn
  | setticks n => exact command (.setticks n)
  | setbear delta => exact command (.setbear delta)
  | setgain sel v => exact command (.setgain sel v)
  | rstenc => exact command .rstenc
  | fwd => exact actuation .fwd
  | bwd => exact actuation .bwd
  | rcw => exact actuation .rcw
  | rccw => exact actuation .rccw
  | stop => exact actuation .stop
  | speed v => exact actuation (.speed v)
  | tiltl => exact actuation .tiltl
  | tiltr => exact actuation .tiltr
  | status f => exact record (.status f)
  | barcode payload => exact record (.barcode payload)
  | diag code => exact record (.diag code)

end Sys2Proof

namespace Sys2Proof.Machine

/-! ## The equations that the event sections above leave out -/

/-- R270 to R278. -/
theorem exec_actuation_toInstr (a : Actuation) (s : State) : exec a.toInstr s = .next (s.emit a) := by
  cases a <;> rfl

/-- R291 to R293. -/
theorem exec_record_toInstr (r : Record) (s : State) : exec r.toInstr s = .next (s.pushTelem r) := by
  cases r <;> rfl

section Photodetector
variable {s : State} (t : Time)

/-- R158, a falling edge in Idle. -/
theorem exec_pedgeF_of_idle (h : s.bc.state = .idle) : exec (.pedgeF t) s = .next s := by
  simp only [exec, execPedgeF, h]

/-- R158, a falling edge where a space is due. -/
theorem exec_pedgeF_of_spaceDue (h : s.bc.state = .accumulating) (hdue : s.bc.spaceDue) :
    exec (.pedgeF t) s = .next s := by
  simp only [exec, execPedgeF, h, if_pos hdue]

/-- R155, a bar other than the fifth. -/
theorem exec_pedgeF_of_barDue (h : s.bc.state = .accumulating) (hdue : ¬ s.bc.spaceDue) (hcount : s.bc.edgeCount.val ≠ 8) :
    exec (.pedgeF t) s = .next (s.setBarcode (s.bc.recordBar s.par.seedPolicy t)) := by
  simp only [exec, execPedgeF, h, if_neg hdue, if_neg hcount]

variable (s)

/-- The three outcomes of a rising edge (R151, R152, R158). -/
theorem exec_pedgeR_cases :
    (s.bc.state = .idle ∧
      exec (.pedgeR t) s = .next (s.setBarcode { s.bc with state := .accumulating, edgeCount := 0, prevEdgeT := t })) ∨
    (s.bc.state = .accumulating ∧ s.bc.spaceDue ∧ exec (.pedgeR t) s = .next (s.setBarcode (s.bc.recordSpace t))) ∨
    (s.bc.state = .accumulating ∧ ¬ s.bc.spaceDue ∧ exec (.pedgeR t) s = .next s) := by
  cases h : s.bc.state with
  | idle => exact .inl ⟨rfl, exec_pedgeR_of_idle t h⟩
  | accumulating =>
    by_cases hdue : s.bc.spaceDue
    · exact .inr (.inl ⟨rfl, hdue, exec_pedgeR_of_spaceDue t h hdue⟩)
    · exact .inr (.inr ⟨rfl, hdue, exec_pedgeR_of_not_spaceDue t h hdue⟩)

/-- The three outcomes of a falling edge: ignored, a bar measured, a symbol completed (R155, R158, R160). -/
theorem exec_pedgeF_cases :
    ((s.bc.state = .idle ∨ s.bc.spaceDue) ∧ exec (.pedgeF t) s = .next s) ∨
    (s.bc.state = .accumulating ∧ ¬ s.bc.spaceDue ∧ s.bc.edgeCount.val ≠ 8 ∧
      exec (.pedgeF t) s = .next (s.setBarcode (s.bc.recordBar s.par.seedPolicy t))) ∨
    (s.bc.state = .accumulating ∧ s.bc.edgeCount.val = 8 ∧
      exec (.pedgeF t) s = .next (s.completeSymbol (s.bc.recordBar s.par.seedPolicy t))) := by
  cases h : s.bc.state with
  | idle => exact .inl ⟨.inl rfl, exec_pedgeF_of_idle t h⟩
  | accumulating =>
    by_cases hdue : s.bc.spaceDue
    · exact .inl ⟨.inr hdue, exec_pedgeF_of_spaceDue t h hdue⟩
    · by_cases hcount : s.bc.edgeCount.val = 8
      · exact .inr (.inr ⟨rfl, hcount, exec_pedgeF_of_ninth t h hcount⟩)
      · exact .inr (.inl ⟨rfl, hdue, hcount, exec_pedgeF_of_barDue t h hdue hcount⟩)

end Photodetector

/-- The two outcomes of an edge of the left wheel (R131). -/
theorem exec_ledge_cases (t : Time) (s : State) :
    exec (.ledge t) s = .next { s with enc := { s.enc with leftTicks := s.enc.leftTicks + 1, lSeen := true, lLastT := t } } ∨
    exec (.ledge t) s = .next s := by
  by_cases h : qualifies s.par.encDebounce s.enc.lSeen s.enc.lLastT t
  · exact .inl (exec_ledge_of_qualifies h)
  · exact .inr (exec_ledge_of_not_qualifies h)

/-- The two outcomes of an edge of the right wheel (R132). -/
theorem exec_redge_cases (t : Time) (s : State) :
    exec (.redge t) s = .next { s with enc := { s.enc with rightTicks := s.enc.rightTicks + 1, rSeen := true, rLastT := t } } ∨
    exec (.redge t) s = .next s := by
  by_cases h : qualifies s.par.encDebounce s.enc.rSeen s.enc.rLastT t
  · exact .inl (exec_redge_of_qualifies h)
  · exact .inr (exec_redge_of_not_qualifies h)

/-- The two outcomes of TPOP (R296). -/
theorem exec_tpop_cases (s : State) :
    exec .tpop s = .next s ∨
    ∃ r rest, s.telemQ = r :: rest ∧ exec .tpop s = .next { s with telemQ := rest, telemOut := s.telemOut ++ [r] } := by
  cases h : s.telemQ with
  | nil => exact .inl (execTpop_of_empty h)
  | cons r rest => exact .inr ⟨r, rest, rfl, execTpop_of_cons h⟩

/-- An outcome that is a next state is that state. -/
theorem next_inj {s t : State} : (.next s : Result) = .next t ↔ s = t := by
  rw [Host.Outcome.next.injEq]

/-- Settles O1: the outcomes of each kind of row are all next states. -/
theorem everyInstructionCompletes : Obligations.EveryInstructionCompletes := by
  intro i s
  induction i using Instr.kindCases with
  | reset => exact ⟨_, exec_reset s⟩
  | ledge t => rcases exec_ledge_cases t s with e | e <;> exact ⟨_, e⟩
  | redge t => rcases exec_redge_cases t s with e | e <;> exact ⟨_, e⟩
  | pedgeR t => rcases exec_pedgeR_cases s t with ⟨-, e⟩ | ⟨-, -, e⟩ | ⟨-, -, e⟩ <;> exact ⟨_, e⟩
  | pedgeF t => rcases exec_pedgeF_cases s t with ⟨-, e⟩ | ⟨-, -, -, e⟩ | ⟨-, -, e⟩ <;> exact ⟨_, e⟩
  | snap a => exact ⟨_, exec_snap a s⟩
  | cpush c => exact ⟨_, exec_cpush c s⟩
  | ctick f => exact ⟨_, exec_ctick f s⟩
  | tpop => rcases exec_tpop_cases s with e | ⟨_, _, -, e⟩ <;> exact ⟨_, e⟩
  | command c => exact ⟨_, exec_toInstr c s⟩
  | actuation a => exact ⟨_, exec_actuation_toInstr a s⟩
  | record r => exact ⟨_, exec_record_toInstr r s⟩

/-! ## The frame of a control tick -/

section Telemetry
variable (lockFail : Byte) (s : State)

@[simp] theorem telemetryStep_enc : (telemetryStep lockFail s).enc = s.enc := by
  obtain ⟨henc, -⟩ := telemetryStep_frame s lockFail; exact henc
@[simp] theorem telemetryStep_snap : (telemetryStep lockFail s).snap = s.snap := by
  obtain ⟨-, hsnap, -⟩ := telemetryStep_frame s lockFail; exact hsnap
@[simp] theorem telemetryStep_bc : (telemetryStep lockFail s).bc = s.bc := by
  obtain ⟨-, -, hbc, -⟩ := telemetryStep_frame s lockFail; exact hbc
@[simp] theorem telemetryStep_cmdQ : (telemetryStep lockFail s).cmdQ = s.cmdQ := by
  obtain ⟨-, -, -, hcmdQ, -⟩ := telemetryStep_frame s lockFail; exact hcmdQ
@[simp] theorem telemetryStep_par : (telemetryStep lockFail s).par = s.par := by
  obtain ⟨-, -, -, -, hpar, -⟩ := telemetryStep_frame s lockFail; exact hpar
@[simp] theorem telemetryStep_inbox : (telemetryStep lockFail s).inbox = s.inbox := by
  obtain ⟨-, -, -, -, -, hinbox, -⟩ := telemetryStep_frame s lockFail; exact hinbox
@[simp] theorem telemetryStep_telemOut : (telemetryStep lockFail s).telemOut = s.telemOut := by
  obtain ⟨-, -, -, -, -, -, htelemOut, -⟩ := telemetryStep_frame s lockFail; exact htelemOut
@[simp] theorem telemetryStep_draws : (telemetryStep lockFail s).draws = s.draws := by
  obtain ⟨-, -, -, -, -, -, -, hdraws, -⟩ := telemetryStep_frame s lockFail; exact hdraws
/-- Step 4 writes no controller register but its counter. -/
theorem telemetryStep_ctl :
    (telemetryStep lockFail s).ctl = { s.ctl with telemCounter := (telemetryStep lockFail s).ctl.telemCounter } := by
  obtain ⟨-, -, -, -, -, -, -, -, hctl⟩ := telemetryStep_frame s lockFail; exact hctl

end Telemetry

/-- Two states that agree in the fields a control tick does not own differ in the five it owns. -/
theorem State.eq_with_tick_fields {s t : State} (hsnap : t.snap = s.snap) (hbc : t.bc = s.bc) (hpar : t.par = s.par)
    (hinbox : t.inbox = s.inbox) (htelemOut : t.telemOut = s.telemOut) (hdraws : t.draws = s.draws) :
    t = { s with enc := t.enc, ctl := t.ctl, cmdQ := t.cmdQ, telemQ := t.telemQ, actOut := t.actOut } := by
  rw [← hsnap, ← hbc, ← hpar, ← hinbox, ← htelemOut, ← hdraws]

/-! ## One frame for each event, one equation for each other kind -/

section Frames
variable {s u : State} {t : Time}

theorem exec_ledge_frame (h : exec (.ledge t) s = .next u) :
    u = { s with enc := u.enc } ∧ u.enc.rightTicks = s.enc.rightTicks ∧ u.enc.rSeen = s.enc.rSeen ∧
      u.enc.rLastT = s.enc.rLastT := by
  rcases exec_ledge_cases t s with e | e
  all_goals obtain rfl := next_inj.mp (e.symm.trans h); exact ⟨rfl, rfl, rfl, rfl⟩

theorem exec_redge_frame (h : exec (.redge t) s = .next u) :
    u = { s with enc := u.enc } ∧ u.enc.leftTicks = s.enc.leftTicks ∧ u.enc.lSeen = s.enc.lSeen ∧
      u.enc.lLastT = s.enc.lLastT := by
  rcases exec_redge_cases t s with e | e
  all_goals obtain rfl := next_inj.mp (e.symm.trans h); exact ⟨rfl, rfl, rfl, rfl⟩

theorem exec_pedgeR_frame (h : exec (.pedgeR t) s = .next u) : u = { s with bc := u.bc } := by
  rcases exec_pedgeR_cases s t with ⟨-, e⟩ | ⟨-, -, e⟩ | ⟨-, -, e⟩
  all_goals obtain rfl := next_inj.mp (e.symm.trans h); rfl

theorem exec_pedgeF_frame (h : exec (.pedgeF t) s = .next u) : u = { s with bc := u.bc, telemQ := u.telemQ } := by
  rcases exec_pedgeF_cases s t with ⟨-, e⟩ | ⟨-, -, -, e⟩ | ⟨-, -, e⟩
  all_goals obtain rfl := next_inj.mp (e.symm.trans h)
  · rfl
  · rfl
  · exact completeSymbol_frame ..

theorem exec_snap_frame {a : SnapArgs} (h : exec (.snap a) s = .next u) : u = { s with snap := u.snap } := by
  obtain rfl := next_inj.mp h; rfl

theorem exec_cpush_frame {c : CommandWord} (h : exec (.cpush c) s = .next u) : u = { s with cmdQ := u.cmdQ } := by
  obtain rfl := next_inj.mp h; rfl

/-- A control tick also leaves the debounce registers alone (10_state.md R22). -/
theorem exec_ctick_frame {lockFail : Byte} (h : exec (.ctick lockFail) s = .next u) :
    u = { s with enc := u.enc, ctl := u.ctl, cmdQ := u.cmdQ, telemQ := u.telemQ, actOut := u.actOut } ∧
    u.enc.lSeen = s.enc.lSeen ∧ u.enc.lLastT = s.enc.lLastT ∧ u.enc.rSeen = s.enc.rSeen ∧ u.enc.rLastT = s.enc.rLastT := by
  obtain rfl := next_inj.mp h
  refine ⟨State.eq_with_tick_fields ?_ ?_ ?_ ?_ ?_ ?_, ?_⟩ <;> simp

theorem exec_tpop_frame (h : exec .tpop s = .next u) : u = { s with telemQ := u.telemQ, telemOut := u.telemOut } := by
  rcases exec_tpop_cases s with e | ⟨r, rest, -, e⟩
  all_goals obtain rfl := next_inj.mp (e.symm.trans h); rfl

theorem exec_command_eq {c : Command} (h : exec c.toInstr s = .next u) : u = runCommand c s :=
  (next_inj.mp ((exec_toInstr c s).symm.trans h)).symm

theorem exec_actuation_eq {a : Actuation} (h : exec a.toInstr s = .next u) : u = s.emit a :=
  (next_inj.mp ((exec_actuation_toInstr a s).symm.trans h)).symm

theorem exec_record_eq {r : Record} (h : exec r.toInstr s = .next u) : u = s.pushTelem r :=
  (next_inj.mp ((exec_record_toInstr r s).symm.trans h)).symm

end Frames

/-- Settles O5: each event by its frame. -/
theorem eventsKeepToTheirGroups : Obligations.EventsKeepToTheirGroups := by
  intro i s t h
  induction i using Instr.kindCases with
  | reset => trivial
  | ledge _ => exact exec_ledge_frame h
  | redge _ => exact exec_redge_frame h
  | pedgeR _ => exact exec_pedgeR_frame h
  | pedgeF _ => exact exec_pedgeF_frame h
  | snap _ => exact exec_snap_frame h
  | cpush _ => exact exec_cpush_frame h
  | ctick _ => exact exec_ctick_frame h
  | tpop => exact exec_tpop_frame h
  | command c => cases c <;> trivial
  | actuation a => cases a <;> trivial
  | record r => cases r <;> trivial

/-! ## What every instruction leaves alone -/

@[simp] theorem runCommand_par (c : Command) (s : State) : (runCommand c s).par = s.par := by simp [runCommand_frame]
@[simp] theorem runCommand_inbox (c : Command) (s : State) : (runCommand c s).inbox = s.inbox := by simp [runCommand_frame]

/-- No instruction writes a parameter or reads a word of the trace (00_scope.md R6, R12). -/
theorem exec_par_inbox {i : Instr} {s t : State} (h : exec i s = .next t) : t.par = s.par ∧ t.inbox = s.inbox := by
  have both {u : State} (hu : t = u) (hpar : u.par = s.par) (hinbox : u.inbox = s.inbox) :
      t.par = s.par ∧ t.inbox = s.inbox := hu ▸ ⟨hpar, hinbox⟩
  induction i using Instr.kindCases with
  | reset => exact both (next_inj.mp h).symm rfl rfl
  | ledge _ => exact both (exec_ledge_frame h).1 rfl rfl
  | redge _ => exact both (exec_redge_frame h).1 rfl rfl
  | pedgeR _ => exact both (exec_pedgeR_frame h) rfl rfl
  | pedgeF _ => exact both (exec_pedgeF_frame h) rfl rfl
  | snap _ => exact both (exec_snap_frame h) rfl rfl
  | cpush _ => exact both (exec_cpush_frame h) rfl rfl
  | ctick _ => exact both (exec_ctick_frame h).1 rfl rfl
  | tpop => exact both (exec_tpop_frame h) rfl rfl
  | command c =>
    exact both (exec_command_eq h) (runCommand_par c s) (runCommand_inbox c s)
  | actuation a => exact both (exec_actuation_eq h) rfl rfl
  | record r => exact both (exec_record_eq h) rfl rfl

/-- What every instruction keeps and the trace has no part in, every step keeps. -/
theorem step_preserves {P : State → Prop} (hinbox : ∀ s rest, P s → P { s with inbox := rest })
    (hexec : ∀ i s t, P s → exec i s = .next t → P t) {s t : State} (hs : P s) (h : step s = .next t) : P t := by
  rcases step_cases s with ⟨-, e⟩ | ⟨w, rest, i, -, -, e⟩ | ⟨w, rest, _, -, -, e⟩
  · exact next_inj.mp (e.symm.trans h) ▸ hs
  · exact hexec i _ t (hinbox s rest hs) (e.symm.trans h)
  · have hreserved := e.symm.trans h
    cases w with
    | event _ => exact next_inj.mp hreserved ▸ hinbox s rest hs
    | command _ => exact next_inj.mp hreserved ▸ hinbox s rest hs
    | actuation _ => exact absurd hreserved nofun
    | telemetry _ => exact absurd hreserved nofun

/-- Settles O2. -/
theorem stepRunsDecodedInstruction : Obligations.StepRunsDecodedInstruction := by
  intro s w rest i hinbox hdecode
  simp only [step, stepWord, hinbox, hdecode]

/-- A step with an event waiting takes it and nothing else from the trace. -/
theorem step_of_event {s : State} {w : EventWord} {rest : List PortWord} (hinbox : s.inbox = .event w :: rest) :
    ∃ t, step s = .next t ∧ t.inbox = rest := by
  cases hdecode : decodeEvent w with
  | error e => exact ⟨_, step_of_decodeEvent_error hinbox hdecode, rfl⟩
  | ok i =>
    obtain ⟨t, ht⟩ := everyInstructionCompletes i { s with inbox := rest }
    obtain ⟨-, hrest⟩ := exec_par_inbox ht
    exact ⟨t, (stepRunsDecodedInstruction s _ rest i hinbox hdecode).trans ht, hrest⟩

/-- Settles O4, by the oldest word of the trace, if there is one. -/
theorem eventTracesNeverStop : Obligations.EventTracesNeverStop := by
  intro s hevents
  cases hinbox : s.inbox with
  | nil =>
    refine ⟨s, ?_, hinbox, hevents, fun _ => rfl⟩
    simp only [step, hinbox]
  | cons w rest =>
    rw [State.eventsOnly, hinbox, List.all_cons, Bool.and_eq_true] at hevents
    obtain ⟨hw, hrest⟩ := hevents
    cases w with
    | event w =>
      obtain ⟨t, ht, htail⟩ := step_of_event hinbox
      exact ⟨t, ht, htail, by rwa [State.eventsOnly, htail], nofun⟩
    | command _ => exact absurd hw Bool.false_ne_true
    | actuation _ => exact absurd hw Bool.false_ne_true
    | telemetry _ => exact absurd hw Bool.false_ne_true

/-! ## The rows that run alone (log entry 3), the mode entries and Idle -/

/-- Settles O30: the push of a record is the bounded push. -/
theorem recordsArePushedOrDropped : Obligations.RecordsArePushedOrDropped := by
  intro r s
  rw [exec_record_toInstr, State.pushTelem, pushBounded]

/-- Settles O31: the emission by `exec_actuation_toInstr`, each word by the encoder's row. -/
theorem actuationWordsAreEmitted : Obligations.ActuationWordsAreEmitted :=
  ⟨exec_actuation_toInstr, rfl, rfl, rfl, rfl, rfl, rfl, rfl, fun _ => rfl⟩

/-- Settles O33: both commands are `enter`, written out. -/
theorem setmodeIdleAndTurnEnter : Obligations.SetmodeIdleAndTurnEnter :=
  fun s => ⟨exec_toInstr .setmodeIdle s, exec_toInstr .setmodeTurn s⟩

/-- Settles O34: both commands are `setCounts` and `enter`, written out. -/
theorem setmodeFwdAndBaResetCounts : Obligations.SetmodeFwdAndBaResetCounts :=
  fun s => ⟨exec_toInstr .setmodeFwd s, exec_toInstr .setmodeBa s⟩

end Sys2Proof.Machine
end

section
/-! The queues and the counts through a step (20_memory.md R61, R62; 41_encoder.md R136, R137): who writes them, case by case, and
the three statements that follow. -/

namespace Sys2Proof.Machine

/-! ## The Telemetry Channel -/

/-- Step 4 pushes at most one record. -/
theorem telemetryStep_telemQ_cases (lockFail : Byte) (s : State) :
    (telemetryStep lockFail s).telemQ = s.telemQ ∨
    ∃ r, (telemetryStep lockFail s).telemQ = pushBounded s.par.telemDepth s.telemQ r := by
  rcases telemetryStep_cases lockFail s with ⟨-, e⟩ | ⟨-, -, e⟩ | ⟨-, -, e⟩
  · exact .inl (by rw [e, State.setTelemCounter_telemQ])
  · exact .inr ⟨_, by rw [e, State.pushTelem_telemQ]; rfl⟩
  · exact .inl (by rw [e, State.emitAll_telemQ, State.setTelemCounter_telemQ])

theorem completeSymbol_telemQ_length_le (s : State) (b : BarcodeRegs) (h : s.telemQ.length ≤ s.par.telemDepth) :
    (s.completeSymbol b).telemQ.length ≤ s.par.telemDepth := by
  rw [completeSymbol_telemQ]
  cases b.symbolRecord with
  | none => exact h
  | some r => exact pushBounded_length_le r h

/-! ## The queue invariant -/

theorem queueInv_of_le {s t : State} (hs : s.QueueInv) (hpar : t.par = s.par) (hcmd : t.cmdQ.length ≤ s.cmdQ.length)
    (htelem : t.telemQ.length ≤ s.telemQ.length) : t.QueueInv := by
  obtain ⟨hc, ht⟩ := hs
  rw [State.QueueInv, hpar]
  exact ⟨hcmd.trans hc, htelem.trans ht⟩

theorem queueInv_of_eq {s t : State} (hs : s.QueueInv) (hpar : t.par = s.par) (hcmd : t.cmdQ = s.cmdQ)
    (htelem : t.telemQ = s.telemQ) : t.QueueInv :=
  queueInv_of_le hs hpar (by rw [hcmd]) (by rw [htelem])

theorem exec_queueInv (i : Instr) (s t : State) (hs : s.QueueInv) (h : exec i s = .next t) : t.QueueInv := by
  obtain ⟨hpar, -⟩ := exec_par_inbox h
  have ⟨hcmd, htelem⟩ := hs
  induction i using Instr.kindCases with
  | reset => obtain rfl := next_inj.mp h; exact ⟨Nat.zero_le _, Nat.zero_le _⟩
  | ledge _ => rw [(exec_ledge_frame h).1]; exact hs
  | redge _ => rw [(exec_redge_frame h).1]; exact hs
  | pedgeR _ => rw [exec_pedgeR_frame h]; exact hs
  | pedgeF t' =>
    rcases exec_pedgeF_cases s t' with ⟨-, e⟩ | ⟨-, -, -, e⟩ | ⟨-, -, e⟩
    all_goals obtain rfl := next_inj.mp (e.symm.trans h)
    · exact hs
    · exact hs
    · rw [completeSymbol_frame]; exact ⟨hcmd, completeSymbol_telemQ_length_le _ _ htelem⟩
  | snap _ => rw [exec_snap_frame h]; exact hs
  | cpush c => obtain rfl := next_inj.mp h; exact ⟨pushBounded_length_le c hcmd, htelem⟩
  | ctick f =>
    obtain rfl := next_inj.mp h
    have hQ : (telemetryStep f (behave (poll s))).telemQ.length ≤ s.par.telemDepth := by
      rcases telemetryStep_telemQ_cases f (behave (poll s)) with e | ⟨r, e⟩ <;> rw [e, behave_telemQ, poll_telemQ]
      · exact htelem
      · rw [behave_par, poll_par]; exact pushBounded_length_le r htelem
    rw [State.QueueInv, hpar]
    refine ⟨?_, hQ⟩
    rw [telemetryStep_cmdQ, behave_cmdQ, poll_cmdQ, List.length_tail]
    omega
  | tpop =>
    rcases exec_tpop_cases s with e | ⟨r, rest, hqueue, e⟩
    all_goals obtain rfl := next_inj.mp (e.symm.trans h)
    · exact hs
    · exact queueInv_of_le hs rfl le_rfl (by rw [hqueue]; exact Nat.le_succ _)
  | command c =>
    obtain rfl := exec_command_eq h
    obtain ⟨-, -, hcmdQ, htelemQ, -⟩ := runCommand_frame s c
    exact queueInv_of_eq hs hpar hcmdQ htelemQ
  | actuation a => obtain rfl := exec_actuation_eq h; exact hs
  | record r =>
    obtain rfl := exec_record_eq h
    exact ⟨hcmd, pushBounded_length_le r htelem⟩

/-- Settles O9, by `exec_queueInv`, and for the parameters by `exec_par_inbox`. -/
theorem stepsKeepQueuesBounded : Obligations.StepsKeepQueuesBounded := by
  intro s t hs h
  refine step_preserves (P := fun u => u.QueueInv ∧ u.par = s.par) (fun _ _ hu => hu) ?_ ⟨hs, rfl⟩ h
  rintro i u v ⟨hu, hpar⟩ hexec
  exact ⟨exec_queueInv i u v hu hexec, (exec_par_inbox hexec).1.trans hpar⟩

/-! ## Step 3, mode by mode (44_controller.md R211) -/

/-- The modes by the law that step 3 runs in them. -/
theorem Mode.law_cases (m : Mode) :
    m = .idle ∨ (m = .forward ∨ m = .barcodeApproach) ∨ m = .reverseTransition ∨ m = .reverse ∨ m = .turn := by
  cases m <;> simp

section Behave
variable {s : State}

theorem behave_of_idle (h : s.ctl.mode = .idle) : behave s = s.emit .stop := by
  simp only [behave, h, idleTick]

/-- Forward and BarcodeApproach differ in the line correction alone (R238). -/
theorem behave_of_forward_or_approach (h : s.ctl.mode = .forward ∨ s.ctl.mode = .barcodeApproach) :
    behave s = s.obstacleOverride.distanceTick .fwd
      (s.wdSteer + if s.ctl.mode = .forward then s.lineSteer else 0) finishForward := by
  rcases h with h | h <;> simp only [behave, h, forwardTick, barcodeApproachTick, obstacleOverride_eq] <;> congr 1
  exact (Int.add_zero _).symm

theorem behave_of_reverseTransition (h : s.ctl.mode = .reverseTransition) : behave s = reverseTransitionTick s := by
  simp only [behave, h]

theorem behave_of_reverse (h : s.ctl.mode = .reverse) :
    behave s = s.distanceTick .bwd (-s.wdSteer) (fun _ u => u.enter .idle) := by
  simp only [behave, h, reverseTick]

theorem behave_of_turn (h : s.ctl.mode = .turn) : behave s = turnTick s := by
  simp only [behave, h]

end Behave

/-! ## The writers of the encoder registers (41_encoder.md R136) -/

theorem runCommand_enc (c : Command) (s : State) :
    (runCommand c s).enc =
      if Command.writesCounts c s.ctl.mode then { s.enc with leftTicks := 0, rightTicks := 0 } else s.enc := by
  cases c with
  | setmodeIdle => rfl
  | setmodeFwd => rfl
  | setmodeBa => rfl
  | setmodeTurn => rfl
  | setticks n => rw [runCommand, cmdSetticks]; split <;> rfl
  | setbear delta => rfl
  | setgain sel v => rfl
  | rstenc => cases h : s.ctl.mode <;> simp [runCommand, cmdRstenc, Command.writesCounts, h, State.setCounts]

theorem poll_enc (s : State) :
    (poll s).enc =
      if (polledCommand s).any (fun c => Command.writesCounts c s.ctl.mode) then { s.enc with leftTicks := 0, rightTicks := 0 }
      else s.enc := by
  rcases poll_cases s with ⟨hq, e⟩ | ⟨w, rest, hq, ⟨err, hd⟩, e⟩ | ⟨w, rest, c, hq, hd, e⟩
  · simp [polledCommand, hq, e]
  · simp [polledCommand, hq, hd, e, Except.toOption]
  · simp [polledCommand, hq, hd, e, runCommand_enc, Except.toOption]

theorem distanceTick_enc (s : State) (dir : Actuation) (steer : Int) {finish : Int → State → State}
    (hfinish : ∀ e u, (finish e u).enc = u.enc) : (s.distanceTick dir steer finish).enc = s.enc := by
  rcases distanceTick_cases s dir steer finish with ⟨-, -, e⟩ | ⟨-, -, e⟩ | ⟨-, -, e⟩ | ⟨-, -, e⟩ <;> rw [e]
  · rfl
  · rw [hfinish]; rfl
  · rfl
  · rfl

theorem finishForward_enc (e : Int) (s : State) : (finishForward e s).enc = s.enc := by
  rcases finishForward_cases e s with ⟨-, h⟩ | ⟨-, h⟩ <;> rw [h] <;> rfl

theorem turnTick_enc (s : State) : (turnTick s).enc = s.enc := by
  rcases turnTick_cases s with ⟨-, e⟩ | ⟨-, e⟩ <;> rw [e] <;> rfl

/-- Step 3 writes the counts in the capture and nowhere else (44_controller.md R241). -/
theorem behave_enc (s : State) : (behave s).enc = if capturesIn s then (capture s).enc else s.enc := by
  rcases Mode.law_cases s.ctl.mode with hmode | hmode | hmode | hmode | hmode
  · simp [behave_of_idle hmode, capturesIn, hmode]
  · have hcaptures : capturesIn s = false := by rcases hmode with h | h <;> simp [capturesIn, h]
    rw [hcaptures, behave_of_forward_or_approach hmode, distanceTick_enc _ _ _ finishForward_enc, obstacleOverride_eq]
    rfl
  · rw [behave_of_reverseTransition hmode]
    rcases reverseTransitionTick_cases s with ⟨hn, e⟩ | ⟨hn, e⟩
    · simp [e, capturesIn, hmode, Nat.not_le.mpr hn]
    · rw [e, if_pos (by simp [capturesIn, hmode, hn])]; rfl
  · simp [behave_of_reverse hmode, distanceTick_enc _ _ _ (fun _ u => State.enter_enc u .idle), capturesIn, hmode]
  · simp [behave_of_turn hmode, turnTick_enc, capturesIn, hmode]

/-! ## The encoder invariant -/

theorem encoderInv_of_zero_counts {s : State} {enc : EncoderRegs} (hs : s.EncoderInv)
    (henc : enc = s.enc ∨ enc = { s.enc with leftTicks := 0, rightTicks := 0 }) : { s with enc := enc }.EncoderInv := by
  obtain ⟨hl, hr⟩ := hs
  rcases henc with rfl | rfl
  · exact ⟨hl, hr⟩
  · exact ⟨fun h => ⟨(hl h).1, rfl⟩, fun h => ⟨(hr h).1, rfl⟩⟩

/-- A wheel that has counted no edge has no share in the differential, so the capture leaves its count at 0. -/
theorem capture_encoderInv {s : State} (hs : s.EncoderInv) : (capture s).EncoderInv := by
  obtain ⟨hl, hr⟩ := hs
  refine ⟨fun h => ⟨(hl h).1, ?_⟩, fun h => ⟨(hr h).1, ?_⟩⟩
  · have hzero : s.left = 0 := by simp [(hl h).2]
    have hnonneg : 0 ≤ s.right := Int.natCast_nonneg _
    have hmax : max (s.left - s.right) 0 = 0 := by omega
    simp [capture, hmax]
  · have hzero : s.right = 0 := by simp [(hr h).2]
    have hnonneg : 0 ≤ s.left := Int.natCast_nonneg _
    have hmax : max (-(s.left - s.right)) 0 = 0 := by omega
    simp only [capture, hmax]; rfl

theorem encoderInv_of_enc_eq {s t : State} (hs : s.EncoderInv) (h : t.enc = s.enc) : t.EncoderInv := by
  rw [State.EncoderInv, h]; exact hs

theorem poll_encoderInv {s : State} (hs : s.EncoderInv) : (poll s).EncoderInv := by
  refine encoderInv_of_enc_eq (encoderInv_of_zero_counts (enc := (poll s).enc) hs ?_) rfl
  rw [poll_enc]; split
  · exact .inr rfl
  · exact .inl rfl

theorem behave_encoderInv {s : State} (hs : s.EncoderInv) : (behave s).EncoderInv := by
  have h := behave_enc s
  split at h
  · exact encoderInv_of_enc_eq (capture_encoderInv hs) h
  · exact encoderInv_of_enc_eq hs h

theorem exec_encoderInv (i : Instr) (s t : State) (hs : s.EncoderInv) (h : exec i s = .next t) : t.EncoderInv := by
  have of_frame {u : State} (hu : t = u) (henc : u.enc = s.enc) : t.EncoderInv :=
    encoderInv_of_enc_eq hs (hu ▸ henc)
  induction i using Instr.kindCases with
  | reset => obtain rfl := next_inj.mp h; exact ⟨fun _ => ⟨rfl, rfl⟩, fun _ => ⟨rfl, rfl⟩⟩
  | ledge t' =>
    rcases exec_ledge_cases t' s with e | e
    all_goals obtain rfl := next_inj.mp (e.symm.trans h)
    · exact ⟨nofun, hs.2⟩
    · exact hs
  | redge t' =>
    rcases exec_redge_cases t' s with e | e
    all_goals obtain rfl := next_inj.mp (e.symm.trans h)
    · exact ⟨hs.1, nofun⟩
    · exact hs
  | pedgeR _ => exact of_frame (exec_pedgeR_frame h) rfl
  | pedgeF _ => exact of_frame (exec_pedgeF_frame h) rfl
  | snap _ => exact of_frame (exec_snap_frame h) rfl
  | cpush _ => exact of_frame (exec_cpush_frame h) rfl
  | ctick f =>
    obtain rfl := next_inj.mp h
    exact encoderInv_of_enc_eq (behave_encoderInv (poll_encoderInv hs)) (telemetryStep_enc ..)
  | tpop => exact of_frame (exec_tpop_frame h) rfl
  | command c =>
    obtain rfl := exec_command_eq h
    refine encoderInv_of_enc_eq (encoderInv_of_zero_counts (enc := (runCommand c s).enc) hs ?_) rfl
    rw [runCommand_enc]; split
    · exact .inr rfl
    · exact .inl rfl
  | actuation a => exact of_frame (exec_actuation_eq h) rfl
  | record r => exact of_frame (exec_record_eq h) rfl

/-- Settles O10. -/
theorem stepsKeepEncoderInvariant : Obligations.StepsKeepEncoderInvariant :=
  fun _ _ hs h => step_preserves (fun _ _ hu => hu) exec_encoderInv hs h

/-! ## The counts of a run (41_encoder.md R137) -/

theorem writesCounts_toInstr (c : Command) (s : State) : writesCounts c.toInstr s = Command.writesCounts c s.ctl.mode := by
  cases c <;> rfl

/-- Where no writer of R136 runs, the only new value of a count is the next one. -/
theorem exec_counts_of_not_writesCounts {i : Instr} {s t : State} (h : exec i s = .next t)
    (hwrites : writesCounts i s = false) :
    (t.enc.leftTicks = s.enc.leftTicks ∨ t.enc.leftTicks = s.enc.leftTicks + 1) ∧
    (t.enc.rightTicks = s.enc.rightTicks ∨ t.enc.rightTicks = s.enc.rightTicks + 1) := by
  have of_frame {u : State} (hu : t = u) (henc : u.enc = s.enc) :
      (t.enc.leftTicks = s.enc.leftTicks ∨ t.enc.leftTicks = s.enc.leftTicks + 1) ∧
      (t.enc.rightTicks = s.enc.rightTicks ∨ t.enc.rightTicks = s.enc.rightTicks + 1) := by
    rw [hu, henc]; exact ⟨.inl rfl, .inl rfl⟩
  induction i using Instr.kindCases with
  | reset => exact absurd hwrites nofun
  | ledge t' =>
    rcases exec_ledge_cases t' s with e | e
    all_goals obtain rfl := next_inj.mp (e.symm.trans h)
    · exact ⟨.inr rfl, .inl rfl⟩
    · exact ⟨.inl rfl, .inl rfl⟩
  | redge t' =>
    rcases exec_redge_cases t' s with e | e
    all_goals obtain rfl := next_inj.mp (e.symm.trans h)
    · exact ⟨.inl rfl, .inr rfl⟩
    · exact ⟨.inl rfl, .inl rfl⟩
  | pedgeR _ => exact of_frame (exec_pedgeR_frame h) rfl
  | pedgeF _ => exact of_frame (exec_pedgeF_frame h) rfl
  | snap _ => exact of_frame (exec_snap_frame h) rfl
  | cpush _ => exact of_frame (exec_cpush_frame h) rfl
  | ctick f =>
    obtain ⟨hpolled, hcaptures⟩ := Bool.or_eq_false_iff.mp hwrites
    refine of_frame (next_inj.mp h).symm ?_
    rw [telemetryStep_enc, behave_enc, hcaptures, poll_enc, hpolled]
    rfl
  | tpop => exact of_frame (exec_tpop_frame h) rfl
  | command c =>
    refine of_frame (exec_command_eq h) ?_
    rw [runCommand_enc, ← writesCounts_toInstr, hwrites]
    rfl
  | actuation a => exact of_frame (exec_actuation_eq h) rfl
  | record r => exact of_frame (exec_record_eq h) rfl

/-- A run of one instruction more, taken apart. -/
theorem runAll_cons_eq_next {i : Instr} {is : List Instr} {s t : State} (h : runAll (i :: is) s = .next t) :
    ∃ u, exec i s = .next u ∧ runAll is u = .next t := by
  obtain ⟨u, hu⟩ := everyInstructionCompletes i s
  rw [runAll, hu] at h
  exact ⟨u, hu, h⟩

theorem onlyIncrements_cons {i : Instr} {is : List Instr} {s u : State} (hu : exec i s = .next u)
    (h : onlyIncrements (i :: is) s = true) : writesCounts i s = false ∧ onlyIncrements is u = true := by
  rw [onlyIncrements, hu, Bool.and_eq_true, Bool.not_eq_true'] at h
  exact h

/-- A count that stays or goes up by 1, with room left for the `n` instructions that follow. -/
theorem count_step {c d : BitVec 64} {n : Nat} (h : d = c ∨ d = c + 1) (hroom : c.toNat + (n + 1) < 2 ^ 64) :
    c.toNat ≤ d.toNat ∧ d.toNat + n < 2 ^ 64 := by
  rcases h with rfl | rfl
  · omega
  · bv_omega

/-- Settles O19, by induction on the run: one instruction raises a count by at most 1. -/
theorem countsNeverDecrease : Obligations.CountsNeverDecrease := by
  intro is
  induction is with
  | nil =>
    intro s t h _ _ _
    obtain rfl := next_inj.mp h
    exact ⟨le_rfl, le_rfl⟩
  | cons i is ih =>
    intro s t h honly hleft hright
    obtain ⟨u, hu, hrest⟩ := runAll_cons_eq_next h
    obtain ⟨hwrites, honly⟩ := onlyIncrements_cons hu honly
    obtain ⟨hl, hr⟩ := exec_counts_of_not_writesCounts hu hwrites
    obtain ⟨hlUp, hlRoom⟩ := count_step hl hleft
    obtain ⟨hrUp, hrRoom⟩ := count_step hr hright
    obtain ⟨hlRest, hrRest⟩ := ih u t hrest honly hlRoom hrRoom
    exact ⟨hlUp.trans hlRest, hrUp.trans hrRest⟩

end Sys2Proof.Machine
end

section
/-! The controller registers through a step (10_state.md R25 to R31; 44_controller.md R236; 45_actuation_telemetry.md R289): a mode
entry, a tick of a law and the telemetry step each keep them in range. -/

namespace Sys2Proof.Machine

/-! ## Ranges of the values that the laws store -/

/-- An error within the difference of two counts fits `last_error` whole (10_state.md R26). -/
theorem toInt_ofInt_error {e : Int} (h : -(2 ^ 64 - 1) ≤ e ∧ e ≤ 2 ^ 64 - 1) : (BitVec.ofInt 66 e).toInt = e := by
  rw [BitVec.toInt_ofInt]
  exact Int.bmod_eq_of_le (by omega) (by omega)

/-- A clamped control value fits `ctrl` whole (10_state.md R30). -/
theorem toInt_ofInt_control {c : Int} (h : -one ≤ c ∧ c ≤ one) : (BitVec.ofInt 32 c).toInt = c := by
  have hone : one = 65536 := rfl
  rw [BitVec.toInt_ofInt]
  exact Int.bmod_eq_of_le (by omega) (by omega)

/-- A number of at most 65535 fits a 16-bit register whole. -/
theorem toNat_ofNat_16 {n : Nat} (h : n ≤ 65535) : (BitVec.ofNat 16 n).toNat = n := by
  rw [BitVec.toNat_ofNat]
  exact Nat.mod_eq_of_lt (by omega)

theorem pdControl_range (s : State) (e : Int) : -one ≤ s.pdControl e ∧ s.pdControl e ≤ one := clamp_mem (by decide)

theorem pidControl_range (s : State) (e : Int) : -one ≤ s.pidControl e ∧ s.pidControl e ≤ one := clamp_mem (by decide)

theorem distError_range (s : State) : -(2 ^ 64 - 1) ≤ s.distError ∧ s.distError ≤ 2 ^ 64 - 1 := by
  have htarget := s.ctl.targetTicks.isLt
  have hleft := s.enc.leftTicks.isLt
  simp only [State.distError, State.target, State.left]
  omega

theorem wrap180_cases (raw : Int) :
    (180 * one < raw ∧ wrap180 raw = raw - 360 * one) ∨
    (raw < -180 * one ∧ wrap180 raw = raw + 360 * one) ∨
    (-180 * one ≤ raw ∧ raw ≤ 180 * one ∧ wrap180 raw = raw) := by
  unfold wrap180
  split
  · exact .inl ⟨‹_›, rfl⟩
  · split
    · exact .inr (.inl ⟨‹_›, rfl⟩)
    · exact .inr (.inr ⟨by omega, by omega, rfl⟩)

theorem turnError_range (s : State) : -(2 ^ 64 - 1) ≤ s.turnError ∧ s.turnError ≤ 2 ^ 64 - 1 := by
  have hbearing := s.ctl.targetBearing.isLt
  have hheading := s.snap.heading.toInt_lt
  have hheading' := s.snap.heading.le_toInt
  unfold State.turnError
  rcases wrap180_cases ((s.ctl.targetBearing.toNat : Int) * one - s.heading) with ⟨-, e⟩ | ⟨-, e⟩ | ⟨-, -, e⟩
  all_goals rw [e]; simp only [State.heading, Q16.raw, one]; omega

theorem scaledSpeed_le_of_range (s : State) {c : Int} (h : -one ≤ c ∧ c ≤ one) : s.scaledSpeed c ≤ s.par.speedMax := by
  have hone : one = 65536 := rfl
  exact scaledSpeed_le s (by omega)

theorem dwellBound_range {s : State} (hvalid : s.par.Valid) : 0 < s.dwellBound ∧ s.dwellBound ≤ 65535 := by
  obtain ⟨hwindow, -, -, -, hdwell, -⟩ := hvalid
  unfold State.dwellBound
  split <;> omega

/-- The modes with a steady window are those whose law runs in every tick. -/
theorem dwellBound_of_law {s : State} (hidle : s.ctl.mode ≠ .idle) (htransition : s.ctl.mode ≠ .reverseTransition) :
    s.dwellBound = s.par.steadyWindow := by
  cases h : s.ctl.mode with
  | idle => exact absurd h hidle
  | reverseTransition => exact absurd h htransition
  | forward => simp only [State.dwellBound, h]
  | barcodeApproach => simp only [State.dwellBound, h]
  | reverse => simp only [State.dwellBound, h]
  | turn => simp only [State.dwellBound, h]

/-! ## What keeps the invariant -/

/-- The two clauses of the invariant that no mode entry establishes. -/
def State.EntryInv (s : State) : Prop :=
  s.ctl.targetBearing.toNat < 360 ∧ s.ctl.telemCounter.toNat < max s.par.telemPeriodMove s.par.telemPeriodIdle

theorem State.ControllerInv.entryInv {s : State} (h : s.ControllerInv) : s.EntryInv := by
  obtain ⟨hbearing, -, -, -, -, -, htelem, -⟩ := h
  exact ⟨hbearing, htelem⟩

/-- Zeros in the registers of a run are in range in every mode. -/
theorem controllerInv_of_zeros {s : State} (hvalid : s.par.Valid) (hs : s.EntryInv)
    (hzero : s.ctl = { s.ctl with lastError := 0, errSum := 0, steadyCounter := 0, ctrl := 0, speed := 0 }) :
    s.ControllerInv := by
  obtain ⟨hbearing, htelem⟩ := hs
  obtain ⟨hdwell, -⟩ := dwellBound_range hvalid
  have herror : -(2 ^ 64 - 1) ≤ (0 : BitVec 66).toInt ∧ (0 : BitVec 66).toInt ≤ 2 ^ 64 - 1 := by decide
  have hctrl : -one ≤ (0 : Q16).toInt ∧ (0 : Q16).toInt ≤ one := by decide
  rw [State.ControllerInv, hzero]
  exact ⟨hbearing, herror, fun _ => rfl, hdwell, hctrl, Nat.zero_le _, htelem, fun _ => ⟨rfl, rfl, rfl⟩⟩

/-- A mode entry writes those zeros (44_controller.md R215). -/
theorem enter_controllerInv {s : State} (m : Mode) (hvalid : s.par.Valid) (hs : s.EntryInv) :
    (s.enter m).ControllerInv :=
  controllerInv_of_zeros (s := s.enter m) hvalid hs rfl

/-- A tick of a law that stays in its mode: the five registers it writes take values in range. -/
theorem controllerInv_of_law {s t : State} (hvalid : s.par.Valid) (hs : s.ControllerInv)
    (hidle : s.ctl.mode ≠ .idle) (htransition : s.ctl.mode ≠ .reverseTransition)
    {c e : Int} {n v : Nat} {sum : BitVec 64} (hpar : t.par = s.par)
    (hctl : t.ctl = { s.ctl with errSum := sum, lastError := BitVec.ofInt 66 e, ctrl := BitVec.ofInt 32 c,
                                 steadyCounter := BitVec.ofNat 16 n, speed := BitVec.ofNat 16 v })
    (hsum : s.ctl.mode ≠ .turn → sum = 0) (he : -(2 ^ 64 - 1) ≤ e ∧ e ≤ 2 ^ 64 - 1) (hc : -one ≤ c ∧ c ≤ one)
    (hn : n < s.par.steadyWindow) (hv : v ≤ s.par.speedMax) : t.ControllerInv := by
  obtain ⟨hbearing, -, -, -, -, -, htelem, -⟩ := hs
  obtain ⟨hwindow, -, -, -, -, -, -, -, -, -, hspeedMax, -⟩ := hvalid
  have hdwell : t.dwellBound = s.par.steadyWindow := by
    rw [dwellBound_of_law (by rwa [hctl]) (by rwa [hctl]), hpar]
  rw [State.ControllerInv, hdwell, hctl, hpar]
  refine ⟨hbearing, ?_, hsum, ?_, ?_, ?_, htelem, ?_⟩
  · rwa [toInt_ofInt_error he]
  · rwa [toNat_ofNat_16 (by omega)]
  · rwa [toInt_ofInt_control hc]
  · rwa [toNat_ofNat_16 (by omega)]
  · rintro (h | h)
    · exact absurd h hidle
    · exact absurd h htransition

/-- The invariant reads the controller registers, without the target, and the parameters. -/
theorem controllerInv_of_eq {s t : State} (hs : s.ControllerInv) (hpar : t.par = s.par)
    (hctl : t.ctl = { s.ctl with targetTicks := t.ctl.targetTicks, gains := t.ctl.gains }) : t.ControllerInv := by
  have hdwell : t.dwellBound = s.dwellBound := by rw [State.dwellBound, State.dwellBound, hctl, hpar]
  rw [State.ControllerInv, hdwell, hctl, hpar]
  exact hs

/-! ## The commands -/

theorem runCommand_controllerInv {s : State} (c : Command) (hvalid : s.par.Valid) (hs : s.ControllerInv) :
    (runCommand c s).ControllerInv := by
  cases c with
  | setmodeIdle => exact enter_controllerInv .idle hvalid hs.entryInv
  | setmodeFwd => exact enter_controllerInv (s := s.setCounts 0 0) .forward hvalid hs.entryInv
  | setmodeBa => exact enter_controllerInv (s := s.setCounts 0 0) .barcodeApproach hvalid hs.entryInv
  | setmodeTurn => exact enter_controllerInv .turn hvalid hs.entryInv
  | setticks n => rw [runCommand, cmdSetticks]; split <;> exact controllerInv_of_eq hs rfl rfl
  | setbear delta =>
    obtain ⟨-, hrest⟩ := hs
    have hresidue := toNat_ofInt_emod_360 (s.heading / one + s32 delta)
    exact ⟨by rw [runCommand, cmdSetbear, State.setBearing_ctl_targetBearing]; omega, hrest⟩
  | setgain sel v => exact controllerInv_of_eq hs rfl rfl
  | rstenc => rw [runCommand, cmdRstenc]; split <;> exact controllerInv_of_eq hs rfl rfl

theorem poll_controllerInv {s : State} (hvalid : s.par.Valid) (hs : s.ControllerInv) : (poll s).ControllerInv := by
  rcases poll_cases s with ⟨-, e⟩ | ⟨_, rest, -, -, e⟩ | ⟨_, rest, c, -, -, e⟩ <;> rw [e]
  · exact hs
  · exact hs
  · exact runCommand_controllerInv (s := { s with cmdQ := rest }) c hvalid hs

/-! ## Step 3 -/

/-- A tick of a distance mode whose dwell ends in the entry of some mode. -/
theorem distanceTick_controllerInv {s : State} (dir : Actuation) (steer : Int) {finish : Int → State → State}
    (hvalid : s.par.Valid) (hs : s.ControllerInv) (hidle : s.ctl.mode ≠ .idle)
    (htransition : s.ctl.mode ≠ .reverseTransition)
    (hfinish : ∀ e u, ∃ m, finish e u = u.enter m) : (s.distanceTick dir steer finish).ControllerInv := by
  have hlaw {t : State} {n v : Nat} := controllerInv_of_law (t := t) (n := n) (v := v) (sum := s.ctl.errSum) hvalid hs
    hidle htransition (he := distError_range s) (hc := pdControl_range s s.distError)
  have ⟨_, _, hsum, _⟩ := hs
  have ⟨hwindow, _⟩ := hvalid
  rcases distanceTick_cases s dir steer finish with ⟨-, hn, h⟩ | ⟨-, -, h⟩ | ⟨-, -, h⟩ | ⟨-, -, h⟩ <;> rw [h]
  · exact hlaw rfl rfl hsum hn (Nat.zero_le _)
  · obtain ⟨m, hm⟩ := hfinish s.distError
      ((((s.storeLaw (s.pdControl s.distError) s.distError).setSpeed 0).setSteady (s.ctl.steadyCounter.toNat + 1)).emit .stop)
    rw [hm]
    exact enter_controllerInv m hvalid hs.entryInv
  · exact hlaw rfl rfl hsum (by omega) (scaledSpeed_le_of_range s (pdControl_range s _))
  · exact hlaw rfl rfl hsum (by omega) (Nat.zero_le _)

theorem finishForward_enters (e : Int) (s : State) : ∃ m, finishForward e s = s.enter m := by
  rcases finishForward_cases e s with ⟨-, h⟩ | ⟨-, h⟩
  · exact ⟨_, h⟩
  · exact ⟨_, h⟩

theorem reverseTransitionTick_controllerInv {s : State} (hvalid : s.par.Valid) (hs : s.ControllerInv)
    (hmode : s.ctl.mode = .reverseTransition) : (reverseTransitionTick s).ControllerInv := by
  have hentry := hs.entryInv
  obtain ⟨hbearing, herror, hsum, -, hctrl, hspeed, htelem, hzero⟩ := hs
  rcases reverseTransitionTick_cases s with ⟨hn, e⟩ | ⟨-, e⟩ <;> rw [e]
  · refine ⟨hbearing, herror, hsum, ?_, hctrl, hspeed, htelem, hzero⟩
    have hdwell : ((s.emit .stop).setSteady (s.ctl.steadyCounter.toNat + 1)).dwellBound = s.par.rtDwellTicks := by
      simp only [State.dwellBound, State.setSteady_ctl_mode, State.emit_ctl, hmode, State.setSteady_par, State.emit_par]
    obtain ⟨-, -, -, -, hrtDwell, -⟩ := hvalid
    rw [hdwell, State.setSteady_ctl_steadyCounter, toNat_ofNat_16 (by omega)]
    exact hn
  · exact enter_controllerInv .reverse hvalid hentry

theorem turnTick_controllerInv {s : State} (hvalid : s.par.Valid) (hs : s.ControllerInv) (hmode : s.ctl.mode = .turn) :
    (turnTick s).ControllerInv := by
  rcases turnTick_cases s with ⟨-, e⟩ | ⟨hn, e⟩ <;> rw [e]
  · exact enter_controllerInv .idle hvalid hs.entryInv
  · have hc := pidControl_range s s.turnError
    exact controllerInv_of_law hvalid hs (by simp [hmode]) (by simp [hmode]) rfl rfl (absurd hmode) (turnError_range s) hc
      hn (scaledSpeed_le_of_range s hc)

theorem behave_controllerInv {s : State} (hvalid : s.par.Valid) (hs : s.ControllerInv) : (behave s).ControllerInv := by
  rcases Mode.law_cases s.ctl.mode with hmode | hmode | hmode | hmode | hmode
  · rw [behave_of_idle hmode]; exact hs
  · rw [behave_of_forward_or_approach hmode, obstacleOverride_eq]
    refine distanceTick_controllerInv _ _ hvalid (controllerInv_of_eq hs rfl rfl) ?_ ?_ finishForward_enters
    all_goals rcases hmode with hmode | hmode <;> simp [hmode]
  · rw [behave_of_reverseTransition hmode]
    exact reverseTransitionTick_controllerInv hvalid hs hmode
  · rw [behave_of_reverse hmode]
    exact distanceTick_controllerInv _ _ hvalid hs (by simp [hmode]) (by simp [hmode]) (fun _ _ => ⟨.idle, rfl⟩)
  · rw [behave_of_turn hmode]
    exact turnTick_controllerInv hvalid hs hmode

/-! ## Step 4 and the step -/

theorem telemPeriod_le (s : State) : s.telemPeriod ≤ max s.par.telemPeriodMove s.par.telemPeriodIdle := by
  unfold State.telemPeriod
  split <;> omega

/-- A period in range leaves room for the 16-bit counter: what step 4 stores is below it (45_actuation_telemetry.md R289). -/
theorem telemetryStep_telemCounter_lt {s : State} (lockFail : Byte) (hvalid : s.par.Valid) :
    (telemetryStep lockFail s).ctl.telemCounter.toNat < max s.par.telemPeriodMove s.par.telemPeriodIdle := by
  obtain ⟨-, -, -, -, -, hmove, hidle, -⟩ := hvalid
  have hperiod := telemPeriod_le s
  have hpositive : 0 < max s.par.telemPeriodMove s.par.telemPeriodIdle := by omega
  rcases telemetryStep_cases lockFail s with ⟨hn, e⟩ | ⟨-, -, e⟩ | ⟨-, -, e⟩ <;> rw [e]
  · rw [State.setTelemCounter_ctl_telemCounter, toNat_ofNat_16 (by omega)]
    omega
  · exact hpositive
  · exact hpositive

theorem telemetryStep_controllerInv {s : State} (lockFail : Byte) (hvalid : s.par.Valid) (hs : s.ControllerInv) :
    (telemetryStep lockFail s).ControllerInv := by
  have htelem := telemetryStep_telemCounter_lt lockFail hvalid
  obtain ⟨hbearing, herror, hsum, hsteady, hctrl, hspeed, -, hzero⟩ := hs
  have hdwell : (telemetryStep lockFail s).dwellBound = s.dwellBound := by
    rw [State.dwellBound, State.dwellBound, telemetryStep_ctl, telemetryStep_par]
  rw [State.ControllerInv, hdwell, telemetryStep_par]
  refine ⟨?_, ?_, ?_, ?_, ?_, ?_, htelem, ?_⟩ <;> rw [telemetryStep_ctl] <;> assumption

theorem exec_controllerInv (i : Instr) (s t : State) (hvalid : s.par.Valid) (hs : s.ControllerInv)
    (h : exec i s = .next t) : t.ControllerInv := by
  have of_frame {u : State} (hu : t = u) (hpar : u.par = s.par) (hctl : u.ctl = s.ctl) : t.ControllerInv :=
    controllerInv_of_eq hs (hu ▸ hpar) (by rw [hu, hctl])
  induction i using Instr.kindCases with
  | reset =>
    obtain rfl := next_inj.mp h
    have ⟨_, _, _, _, _, hmove, _⟩ := hvalid
    have hperiod : 0 < max s.par.telemPeriodMove s.par.telemPeriodIdle := by omega
    have hbearing : (0 : BitVec 16).toNat < 360 := by decide
    exact controllerInv_of_zeros hvalid ⟨hbearing, hperiod⟩ rfl
  | ledge _ => exact of_frame (exec_ledge_frame h).1 rfl rfl
  | redge _ => exact of_frame (exec_redge_frame h).1 rfl rfl
  | pedgeR _ => exact of_frame (exec_pedgeR_frame h) rfl rfl
  | pedgeF _ => exact of_frame (exec_pedgeF_frame h) rfl rfl
  | snap _ => exact of_frame (exec_snap_frame h) rfl rfl
  | cpush _ => exact of_frame (exec_cpush_frame h) rfl rfl
  | ctick f =>
    obtain rfl := next_inj.mp h
    have hpoll := poll_controllerInv hvalid hs
    have hvalid' : (poll s).par.Valid := by rwa [poll_par]
    exact telemetryStep_controllerInv f (by rwa [behave_par]) (behave_controllerInv hvalid' hpoll)
  | tpop => exact of_frame (exec_tpop_frame h) rfl rfl
  | command c =>
    obtain rfl := exec_command_eq h
    exact runCommand_controllerInv c hvalid hs
  | actuation a => exact of_frame (exec_actuation_eq h) rfl rfl
  | record r => exact of_frame (exec_record_eq h) rfl rfl

/-- Settles O11, by `exec_controllerInv`; the parameters stay in range because no instruction writes them. -/
theorem stepsKeepControllerInvariant : Obligations.StepsKeepControllerInvariant := by
  intro s t hvalid hs h
  refine (step_preserves (P := fun u => u.par.Valid ∧ u.ControllerInv) (fun _ _ hu => hu) ?_ ⟨hvalid, hs⟩ h).2
  rintro i u v ⟨hvalidU, hu⟩ hexec
  obtain ⟨hpar, -⟩ := exec_par_inbox hexec
  exact ⟨by rwa [hpar], exec_controllerInv i u v hvalidU hu hexec⟩

end Sys2Proof.Machine
end

section
/-! The barcode registers through a step (10_state.md R33 to R38): the invariant in two halves, the window's and the scan's, and what
each outcome of an edge does to each half. -/

namespace Sys2Proof.Machine

/-! ## The two halves -/

/-- The interval counter, the widths and the threshold agree (R33, R35, R36; 42_barcode.md R157). -/
def BarcodeRegs.WindowInv (b : BarcodeRegs) : Prop :=
  (b.state = .idle → b.edgeCount.val = 0) ∧
  (∀ i : Fin 5, b.edgeCount.val < 2 * i.val + 1 → b.barW[i] = 0) ∧
  (∀ j : Fin 4, b.edgeCount.val < 2 * j.val + 2 → b.spaceW[j] = 0) ∧
  (b.threshValid = false → b.threshold = 0) ∧
  (0 < b.edgeCount.val → b.threshValid = true)

/-- The buffer and the orientation agree (R37, R38). -/
def BarcodeRegs.ScanInv (b : BarcodeRegs) (assembledMax : Nat) : Prop :=
  b.assembled.length ≤ assembledMax ∧
  (b.assembled ≠ [] → b.assembled.head? = some sentinel) ∧
  (b.assembled.drop 1).all scanChar = true ∧
  (b.reversed = true → b.assembled ≠ [])

theorem barcodeInv_iff (s : State) : s.BarcodeInv ↔ s.bc.WindowInv ∧ s.bc.ScanInv s.par.assembledMax :=
  ⟨fun ⟨hidle, hbars, hspaces, hthreshold, hvalid, hscan⟩ => ⟨⟨hidle, hbars, hspaces, hthreshold, hvalid⟩, hscan⟩,
   fun ⟨⟨hidle, hbars, hspaces, hthreshold, hvalid⟩, hscan⟩ => ⟨hidle, hbars, hspaces, hthreshold, hvalid, hscan⟩⟩

/-! ## The window -/

section Window
variable {b : BarcodeRegs} (t : Time)

/-- R151: Idle has no interval in the window, so nothing but the state and the timestamp changes. -/
theorem windowInv_start (h : b.WindowInv) (hstate : b.state = .idle) :
    { b with state := .accumulating, edgeCount := 0, prevEdgeT := t }.WindowInv := by
  obtain ⟨hidle, hbars, hspaces, hthreshold, -⟩ := h
  have hcount := hidle hstate
  exact ⟨nofun, fun i _ => hbars i (by omega), fun j _ => hspaces j (by omega), hthreshold, nofun⟩

/-- R152: the cell that a space fills is the first that is not yet measured. -/
theorem windowInv_recordSpace (h : b.WindowInv) (hdue : b.spaceDue) : (b.recordSpace t).WindowInv := by
  obtain ⟨hidle, hbars, hspaces, hthreshold, hvalid⟩ := h
  have hcount := recordSpace_edgeCount_val t hdue
  refine ⟨fun hstate => ?_, fun i hi => hbars i (by omega), fun j hj => ?_, hthreshold, fun _ => hvalid (by omega)⟩
  · have := hidle hstate
    omega
  · rw [recordSpace_spaceW_getElem, if_neg (by omega)]
    exact hspaces j (by omega)

/-- R155: the cell that a bar fills is the first that is not yet measured, and the bar leaves the threshold seeded. -/
theorem windowInv_recordBar (policy : SeedPolicy) (h : b.WindowInv) (hstate : b.state = .accumulating)
    (hbarDue : ¬ b.spaceDue) (hcount : b.edgeCount.val ≠ 8) : (b.recordBar policy t).WindowInv := by
  obtain ⟨-, hbars, hspaces, -, -⟩ := h
  have heven : b.edgeCount.val % 2 ≠ 1 := hbarDue
  have hnext := nextCount_val b hcount
  refine ⟨fun hidle => ?_, fun i hi => ?_, fun j hj => ?_, fun hinvalid => ?_, fun _ => recordBar_threshValid ..⟩
  · rw [recordBar_state, hstate] at hidle
    exact absurd hidle nofun
  · rw [recordBar_edgeCount, hnext] at hi
    rw [recordBar_barW_getElem, if_neg (by omega)]
    exact hbars i (by omega)
  · rw [recordBar_edgeCount, hnext] at hj
    rw [recordBar_spaceW]
    exact hspaces j (by omega)
  · rw [recordBar_threshValid] at hinvalid
    exact absurd hinvalid nofun

/-- R169: an empty window beside a seeded threshold. -/
theorem windowInv_clearWindow (hvalid : b.threshValid = true) : b.clearWindow.WindowInv := by
  have hbars : ∀ i : Fin 5, b.clearWindow.barW[i] = 0 := fun _ => Vector.getElem_replicate _
  have hspaces : ∀ j : Fin 4, b.clearWindow.spaceW[j] = 0 := fun _ => Vector.getElem_replicate _
  refine ⟨fun _ => rfl, fun i _ => hbars i, fun j _ => hspaces j, fun hinvalid => ?_, fun _ => hvalid⟩
  exact absurd (hvalid.symm.trans hinvalid) nofun

end Window

/-! ## The scan -/

theorem scanInv_of_eq {b c : BarcodeRegs} {cap : Nat} (h : b.ScanInv cap) (hreversed : c.reversed = b.reversed)
    (hassembled : c.assembled = b.assembled) : c.ScanInv cap := by
  rw [BarcodeRegs.ScanInv, hreversed, hassembled]
  exact h

/-- The character of a symbol that is no sentinel may stand in the buffer (42_barcode.md R162, R168). -/
theorem scanChar_of_ne_sentinel {b : BarcodeRegs} (h : (if b.reversed then b.reversedChar else b.normalChar) ≠ sentinel) :
    scanChar (if b.reversed then b.reversedChar else b.normalChar) = true := by
  have hmem : (if b.reversed then b.reversedChar else b.normalChar) ∈ alphabet := by
    split <;> exact decodeSymbol_mem ..
  simp only [scanChar, Bool.and_eq_true, List.contains_iff_mem, bne_iff_ne]
  exact ⟨hmem, h⟩

/-- R168: a character goes to the end of a buffer that begins with the sentinel. -/
theorem scanInv_append {b : BarcodeRegs} {cap : Nat} {c : Byte} (h : b.ScanInv cap) (hlater : b.assembled ≠ [])
    (hroom : b.asmLen < cap) (hc : scanChar c = true) : { b with assembled := b.assembled ++ [c] }.ScanInv cap := by
  obtain ⟨-, hhead, hall, -⟩ := h
  have hone : 1 ≤ b.assembled.length := List.length_pos_of_ne_nil hlater
  refine ⟨?_, fun _ => ?_, ?_, fun _ => List.append_ne_nil_of_right_ne_nil _ (List.cons_ne_nil c [])⟩
  · rw [List.length_append]; exact hroom
  · rw [List.head?_append, hhead hlater]; rfl
  · rw [List.drop_append_of_le_length hone, List.all_append, hall, List.all_cons, hc]; rfl

theorem scanInv_applySymbol {b : BarcodeRegs} {cap : Nat} (hcap : 1 ≤ cap) (h : b.ScanInv cap) :
    (b.applySymbol cap).ScanInv cap := by
  rcases classify_cases b cap with ⟨-, -, -, e⟩ | ⟨-, -, -, -, e⟩ | ⟨-, -, -, -, e⟩ | ⟨-, -, -, e⟩ |
    ⟨c, rfl, hlater, hc, -, e⟩ <;> rw [e]
  · exact ⟨hcap, fun _ => rfl, rfl, nofun⟩
  · exact ⟨hcap, fun _ => rfl, rfl, nofun⟩
  · exact h
  · exact ⟨Nat.zero_le _, fun hne => absurd rfl hne, rfl, nofun⟩
  · split
    · exact scanInv_append h hlater ‹_› (scanChar_of_ne_sentinel hc)
    · exact h

/-! ## The edges and the step -/

theorem completeSymbol_barcodeInv {s : State} (policy : SeedPolicy) (t : Time) (hvalid : s.par.Valid)
    (hscan : s.bc.ScanInv s.par.assembledMax) : (s.completeSymbol (s.bc.recordBar policy t)).BarcodeInv := by
  have ⟨_, _, _, _, _, _, _, _, _, _, _, _, _, _, hcap, _⟩ := hvalid
  obtain ⟨-, hthreshValid, -⟩ := applySymbol_frame (s.bc.recordBar policy t) s.par.assembledMax
  have hscanBar : (s.bc.recordBar policy t).ScanInv s.par.assembledMax :=
    scanInv_of_eq hscan (recordBar_reversed ..) (recordBar_assembled ..)
  have hone : 1 ≤ s.par.assembledMax := by omega
  rw [barcodeInv_iff, completeSymbol_eq]
  exact ⟨windowInv_clearWindow (hthreshValid.trans (recordBar_threshValid ..)),
    scanInv_of_eq (scanInv_applySymbol hone hscanBar) rfl rfl⟩

/-- The reset values agree with each other. -/
theorem barcodeInv_of_reset {s : State} (h : s.bc = BarcodeRegs.reset) : s.BarcodeInv := by
  have hwindow : BarcodeRegs.reset.WindowInv := ⟨fun _ => rfl, by decide, by decide, fun _ => rfl, nofun⟩
  rw [barcodeInv_iff, h]
  exact ⟨hwindow, Nat.zero_le _, fun hne => absurd rfl hne, rfl, nofun⟩

theorem exec_barcodeInv (i : Instr) (s t : State) (hvalid : s.par.Valid) (hs : s.BarcodeInv) (h : exec i s = .next t) :
    t.BarcodeInv := by
  have of_frame {u : State} (hu : t = u) (hpar : u.par = s.par) (hbc : u.bc = s.bc) : t.BarcodeInv := by
    rw [State.BarcodeInv, hu, hpar, hbc]; exact hs
  have ⟨hwindow, hscan⟩ := (barcodeInv_iff s).mp hs
  induction i using Instr.kindCases with
  | reset => obtain rfl := next_inj.mp h; exact barcodeInv_of_reset rfl
  | ledge _ => exact of_frame (exec_ledge_frame h).1 rfl rfl
  | redge _ => exact of_frame (exec_redge_frame h).1 rfl rfl
  | pedgeR t' =>
    rcases exec_pedgeR_cases s t' with ⟨hidle, e⟩ | ⟨-, hdue, e⟩ | ⟨-, -, e⟩
    all_goals obtain rfl := next_inj.mp (e.symm.trans h)
    · exact (barcodeInv_iff _).mpr ⟨windowInv_start t' hwindow hidle, hscan⟩
    · exact (barcodeInv_iff _).mpr ⟨windowInv_recordSpace t' hwindow hdue, hscan⟩
    · exact hs
  | pedgeF t' =>
    rcases exec_pedgeF_cases s t' with ⟨-, e⟩ | ⟨hstate, hdue, hcount, e⟩ | ⟨-, -, e⟩
    all_goals obtain rfl := next_inj.mp (e.symm.trans h)
    · exact hs
    · exact (barcodeInv_iff _).mpr ⟨windowInv_recordBar t' _ hwindow hstate hdue hcount,
        scanInv_of_eq hscan (recordBar_reversed ..) (recordBar_assembled ..)⟩
    · exact completeSymbol_barcodeInv _ t' hvalid hscan
  | snap _ => exact of_frame (exec_snap_frame h) rfl rfl
  | cpush _ => exact of_frame (exec_cpush_frame h) rfl rfl
  | ctick f => exact of_frame (exec_ctick_frame h).1 rfl rfl
  | tpop => exact of_frame (exec_tpop_frame h) rfl rfl
  | command c =>
    obtain ⟨-, hbc, -, -, hpar, -⟩ := runCommand_frame s c
    exact of_frame (exec_command_eq h) hpar hbc
  | actuation a => exact of_frame (exec_actuation_eq h) rfl rfl
  | record r => exact of_frame (exec_record_eq h) rfl rfl

/-- Settles O12, by `exec_barcodeInv`. -/
theorem stepsKeepBarcodeInvariant : Obligations.StepsKeepBarcodeInvariant := by
  intro s t hvalid hs h
  refine (step_preserves (P := fun u => u.par.Valid ∧ u.BarcodeInv) (fun _ _ hu => hu) ?_ ⟨hvalid, hs⟩ h).2
  rintro i u v ⟨hvalidU, hu⟩ hexec
  obtain ⟨hpar, -⟩ := exec_par_inbox hexec
  exact ⟨by rwa [hpar], exec_barcodeInv i u v hvalidU hu hexec⟩

end Sys2Proof.Machine
end

section
/-! Encoding and decoding (30_encoding.md R92 to R97, R106, R107): the words of every format read back, the spelling of the two output
formats, the ignored bits, and the worked encodings. -/

namespace Sys2Proof

/-! ## Format E -/

/-- The rows of PEDGE in the table of R92: bit 0 of the `sub` byte tells the edges apart. -/
theorem decodeEvent_pedge_word (sub : Byte) (t : Time) :
    decodeEvent (eventWord 0x03 sub t) = if sub.getLsbD 0 then .ok (.pedgeR t) else .ok (.pedgeF t) := by
  simp [decodeEvent]

/-- The operand of a CTICK word is ignored. -/
theorem decodeEvent_ctick_word (lockFail : Byte) (arg : BitVec 64) :
    decodeEvent (eventWord 0x06 lockFail arg) = .ok (.ctick lockFail) := by
  simp [decodeEvent]

/-- A bit of the low part of a word does not depend on the high part. -/
theorem getLsbD_append_of_lt {n m k : Nat} (hi : BitVec n) (low : BitVec m) (h : k < m) :
    (hi ++ low).getLsbD k = low.getLsbD k := by
  rw [BitVec.getLsbD_append, if_pos h]

/-! ## Format A -/

theorem decodeActuation_encodeActuation (a : Actuation) : decodeActuation (encodeActuation a) = .ok a := by
  cases a <;> simp [encodeActuation, decodeActuation]

/-- A word of 24 bits is its two fields. -/
theorem actuationWord_fields (w : ActuationWord) : actuationWord (w.extractLsb' 16 8) (w.extractLsb' 0 16) = w := by
  rw [actuationWord, BitVec.extractLsb'_append_extractLsb'_eq_extractLsb' (by rfl), BitVec.extractLsb'_eq_self]

/-- The rows of the table of R96 are all the words that decode. -/
theorem encodeActuation_of_decodeActuation {op : Byte} {arg : BitVec 16} {a : Actuation}
    (h : decodeActuation (actuationWord op arg) = .ok a) : encodeActuation a = actuationWord op arg := by
  simp only [decodeActuation, actuationWord_op, actuationWord_arg] at h
  split at h
  case isTrue hop => cases h; rw [hop]; rfl
  case isFalse hspeed =>
    split at h
    case isTrue => cases h
    case isFalse hrange =>
      split at h
      case isTrue => cases h
      case isFalse harg =>
        rw [not_not.mp harg]
        repeat' split at h
        all_goals cases h
        case isFalse.isFalse.isFalse.isFalse.isFalse.isFalse =>
          have hop : op = 0x08 := by bv_omega
          rw [hop]; rfl
        all_goals subst_vars; rfl

/-! ## Format T -/

section Bytes
variable {w n : Nat}

/-- A field behind `m` bytes is read from what follows them. -/
theorem byteField_append_of_le {start m : Nat} {front : List Byte} (rest : List Byte) (hfront : front.length = m)
    (h : m ≤ start) : byteField w (front ++ rest) start n = byteField w rest (start - m) n := by
  rw [byteField, byteField, List.drop_append, List.drop_of_length_le (by omega), hfront, List.nil_append]

theorem byteField_cons_succ (b : Byte) (rest : List Byte) (start : Nat) :
    byteField w (b :: rest) (start + 1) n = byteField w rest start n := rfl

/-- A field of whole bytes is read back from the bytes of its value. -/
theorem byteField_natToBytes_append (hw : w = 8 * n) (v : BitVec w) (rest : List Byte) :
    byteField w (natToBytes n v.toNat ++ rest) 0 n = v := by
  have hbytes : 256 ^ n = 2 ^ w := by rw [hw, Nat.pow_mul]
  rw [byteField, List.drop_zero, List.take_left' (natToBytes_length ..), bytesToNat_natToBytes, hbytes,
    Nat.mod_eq_of_lt v.isLt, BitVec.ofNat_toNat, BitVec.setWidth_eq]

theorem byteField_natToBytes (hw : w = 8 * n) (v : BitVec w) : byteField w (natToBytes n v.toNat) 0 n = v := by
  rw [← List.append_nil (natToBytes n v.toNat), byteField_natToBytes_append hw]

theorem bytesToNat_append_singleton (bs : List Byte) (b : Byte) : bytesToNat (bs ++ [b]) = bytesToNat bs * 256 + b.toNat := by
  simp [bytesToNat, List.foldl_append]

theorem bytesToNat_lt (bs : List Byte) : bytesToNat bs < 256 ^ bs.length := by
  induction bs using List.reverseRecOn with
  | nil => decide
  | append_singleton bs b ih =>
    have hb := b.isLt
    rw [bytesToNat_append_singleton, List.length_append, List.length_singleton, Nat.pow_succ]
    omega

/-- The bytes of the number that a sequence of bytes writes are that sequence. -/
theorem natToBytes_bytesToNat (bs : List Byte) : natToBytes bs.length (bytesToNat bs) = bs := by
  induction bs using List.reverseRecOn with
  | nil => rfl
  | append_singleton bs b ih =>
    have hb := b.isLt
    have hhigh : (bytesToNat bs * 256 + b.toNat) / 256 = bytesToNat bs := by omega
    have hlow : BitVec.ofNat 8 (bytesToNat bs * 256 + b.toNat) = b :=
      BitVec.eq_of_toNat_eq (by rw [BitVec.toNat_ofNat]; omega)
    rw [List.length_append, List.length_singleton, natToBytes, bytesToNat_append_singleton, hhigh, hlow, ih]

/-- The bytes of a field of whole bytes are the part of the record that it was read from. -/
theorem natToBytes_byteField (hw : w = 8 * n) {bs : List Byte} {start : Nat} (h : start + n ≤ bs.length) :
    natToBytes n (byteField w bs start n).toNat = (bs.drop start).take n := by
  have hlength : ((bs.drop start).take n).length = n := by
    rw [List.length_take, List.length_drop]
    omega
  have hlt := bytesToNat_lt ((bs.drop start).take n)
  have hbytes : 256 ^ n = 2 ^ w := by rw [hw, Nat.pow_mul]
  rw [hlength, hbytes] at hlt
  rw [byteField, BitVec.toNat_ofNat, Nat.mod_eq_of_lt hlt]
  have hback := natToBytes_bytesToNat ((bs.drop start).take n)
  rwa [hlength] at hback

/-- Two neighbouring parts of a record are one part. -/
theorem take_drop_append_take_drop {α : Type} (l : List α) (start n m : Nat) :
    (l.drop start).take n ++ (l.drop (start + n)).take m = (l.drop start).take (n + m) := by
  rw [List.take_add, List.drop_drop]

end Bytes

/-- The fields of a STATUS record, read back from its 55 bytes (R97). -/
theorem decodeStatus_encodeRecord (f : StatusFields) : decodeStatus (encodeRecord (.status f)) = f := by
  have skip {w n : Nat} (m v start : Nat) (rest : List Byte) (h : m ≤ start) :
      byteField w (natToBytes m v ++ rest) start n = byteField w rest (start - m) n :=
    byteField_append_of_le rest (natToBytes_length m v) h
  simp [decodeStatus, encodeRecord, skip, byteField_cons_succ, byteField_natToBytes_append, byteField_natToBytes]

theorem decodeRecord_encodeRecord {r : Record} (hwf : r.toInstr.wf = true) : decodeRecord (encodeRecord r) = .ok r := by
  cases r with
  | status f =>
    have hlength : (encodeRecord (.status f)).length = 55 := by simp [encodeRecord]
    have hhead : (encodeRecord (.status f)).head? = some 0x01 := rfl
    unfold decodeRecord
    rw [if_pos hhead, if_pos hlength, decodeStatus_encodeRecord]
  | barcode payload =>
    have hpayload : payload.length ≤ 254 := of_decide_eq_true hwf
    have hlen : (BitVec.ofNat 8 payload.length).toNat = payload.length := by
      rw [BitVec.toNat_ofNat]
      exact Nat.mod_eq_of_lt (by omega)
    simp [decodeRecord, encodeRecord, hlen, hpayload]
  | diag code => rfl

/-- The parts of a STATUS record, one field after the other, are the record (R97). -/
theorem encodeRecord_decodeStatus {bs : List Byte} (hhead : bs.head? = some 0x01) (hlength : bs.length = 55) :
    encodeRecord (.status (decodeStatus bs)) = bs := by
  have field {w n start : Nat} (hw : w = 8 * n) (h : start + n ≤ 55) :
      natToBytes n (byteField w bs start n).toNat = (bs.drop start).take n :=
    natToBytes_byteField hw (by omega)
  have hrest : (bs.drop 1).take 54 = bs.drop 1 := List.take_of_length_le (by rw [List.length_drop]; omega)
  obtain ⟨rest, rfl⟩ := List.head?_eq_some_iff.mp hhead
  simp only [encodeRecord, decodeStatus, field rfl (by decide : 1 + 1 ≤ 55), field rfl (by decide : 2 + 8 ≤ 55),
    field rfl (by decide : 10 + 8 ≤ 55), field rfl (by decide : 18 + 8 ≤ 55), field rfl (by decide : 26 + 2 ≤ 55),
    field rfl (by decide : 28 + 9 ≤ 55), field rfl (by decide : 37 + 4 ≤ 55), field rfl (by decide : 41 + 4 ≤ 55),
    field rfl (by decide : 45 + 4 ≤ 55), field rfl (by decide : 49 + 4 ≤ 55), field rfl (by decide : 53 + 2 ≤ 55)]
  congr 1
  rw [take_drop_append_take_drop _ 1 1 8, take_drop_append_take_drop _ 1 9 8, take_drop_append_take_drop _ 1 17 8,
    take_drop_append_take_drop _ 1 25 2, take_drop_append_take_drop _ 1 27 9, take_drop_append_take_drop _ 1 36 4,
    take_drop_append_take_drop _ 1 40 4, take_drop_append_take_drop _ 1 44 4, take_drop_append_take_drop _ 1 48 4,
    take_drop_append_take_drop _ 1 52 2, hrest]
  rfl

theorem encodeRecord_of_decodeRecord {bs : List Byte} {r : Record} (h : decodeRecord bs = .ok r) : encodeRecord r = bs := by
  unfold decodeRecord at h
  split at h
  case isTrue hhead =>
    split at h
    case isTrue hlength => cases h; exact encodeRecord_decodeStatus hhead hlength
    case isFalse => cases h
  case isFalse =>
    split at h
    case isTrue hhead =>
      split at h
      case h_1 kind len payload =>
        split at h
        case isTrue hlen =>
          cases h
          cases hhead
          rw [encodeRecord, hlen.1, BitVec.ofNat_toNat, BitVec.setWidth_eq]
        case isFalse => cases h
      case h_2 => cases h
    case isFalse =>
      split at h
      case isTrue hhead =>
        split at h
        case h_1 kind code => cases h; cases hhead; rfl
        case h_2 => cases h
      case isFalse => cases h

/-! ## The four formats together -/

theorem encode_command (chars : ModeChars) (c : Command) : encode chars c.toInstr = .command (encodeCommand chars c) := by
  cases c <;> rfl

theorem encode_actuation (chars : ModeChars) (a : Actuation) : encode chars a.toInstr = .actuation (encodeActuation a) := by
  cases a <;> rfl

theorem encode_record (chars : ModeChars) (r : Record) : encode chars r.toInstr = .telemetry (encodeRecord r) := by
  cases r <;> rfl

/-- Settles O13: the events by their words, and the other three formats each by the word of its data. -/
theorem decodeInvertsEncode : Obligations.DecodeInvertsEncode := by
  intro p i hvalid hwf
  induction i using Instr.kindCases with
  | reset => exact decodeEvent_reset_word 0 0
  | ledge t => exact decodeEvent_ledge_word 0 t
  | redge t => exact decodeEvent_redge_word 0 t
  | pedgeR t => exact decodeEvent_pedge_word 1 t
  | pedgeF t => exact decodeEvent_pedge_word 0 t
  | snap a => exact decodeEvent_snap_word a
  | cpush c => exact decodeEvent_cpush_word 0 0 c
  | ctick f => exact decodeEvent_ctick_word f 0
  | tpop => exact decodeEvent_tpop_word 0 0
  | command c =>
    obtain ⟨-, -, -, -, -, -, -, -, -, -, -, -, -, -, -, -, hnodup⟩ := hvalid
    rw [encode_command, decode, decodeCommand_encodeCommand hnodup]; rfl
  | actuation a => rw [encode_actuation, decode, decodeActuation_encodeActuation]; rfl
  | record r => rw [encode_record, decode, decodeRecord_encodeRecord hwf]; rfl

/-- Settles O14, each format by its lemma. -/
theorem outputFormatsHaveOneSpelling : Obligations.OutputFormatsHaveOneSpelling := by
  refine ⟨fun w a h => ?_, fun bs r h => encodeRecord_of_decodeRecord h⟩
  rw [← actuationWord_fields w] at h ⊢
  exact encodeActuation_of_decodeActuation h

/-! ## Ignored bits, worked encodings and pseudo-instructions -/

/-- Settles O15: each row reads its word to the same instruction whatever the bits it ignores. -/
theorem ignoredBitsHaveNoEffect : Obligations.IgnoredBitsHaveNoEffect := by
  refine ⟨?reset, ?edges, ?pedge, ?snap, ?cpush, ?ctick, ?tpop, ?setmode, ?operands, ?rstenc⟩
  case reset => intros; rw [decodeEvent_reset_word, decodeEvent_reset_word]
  case edges => intros; simp only [decodeEvent_ledge_word, decodeEvent_redge_word, and_self]
  case pedge =>
    intro hi hi' b t
    rw [decodeEvent_pedge_word, decodeEvent_pedge_word, getLsbD_append_of_lt hi b (by decide),
      getLsbD_append_of_lt hi' b (by decide)]
  case snap =>
    intro hi hi' low arg
    have hbit (k : Nat) (hk : k < 6) : (hi ++ low).getLsbD k = (hi' ++ low).getLsbD k := by
      rw [getLsbD_append_of_lt hi low hk, getLsbD_append_of_lt hi' low hk]
    rw [decodeEvent_of_op_snap (eventWord_op ..), decodeEvent_of_op_snap (eventWord_op ..), eventWord_sub, eventWord_sub,
      eventWord_high, eventWord_high, eventWord_low _ _ _ 32 (by decide), eventWord_low _ _ _ 32 (by decide)]
    simp only [hbit 0 (by decide), hbit 1 (by decide), hbit 2 (by decide), hbit 3 (by decide), hbit 4 (by decide),
      hbit 5 (by decide)]
  case cpush => intros; rw [decodeEvent_cpush_word, decodeEvent_cpush_word]
  case ctick => intros; rw [decodeEvent_ctick_word, decodeEvent_ctick_word]
  case tpop => intros; rw [decodeEvent_tpop_word, decodeEvent_tpop_word]
  case setmode => intros; rw [decodeCommand_setmode_word, decodeCommand_setmode_word]
  case operands => intros; simp only [decodeCommand_setticks_word, decodeCommand_setbear_word, and_self]
  case rstenc => intros; rw [decodeCommand_rstenc_word, decodeCommand_rstenc_word]

/-- Settles O16: the table is closed, so each line of it is evaluated. -/
theorem workedEncodingsDecode : Obligations.WorkedEncodingsDecode := by
  unfold Obligations.WorkedEncodingsDecode
  refine ⟨?_, ?_, ?_, ?_, ?_, ?_, ?_, ?_, ?_, ?_, ?_, ?_, ?_, ?_, ?_, ?_, ?_, ?_, ?_, ?_, ?_, ?_, ?_, ?_, ?_, ?_, ?_, ?_, ?_, ?_,
    ?_, ?_, ?_, ?_, ?_, ?_, ?_, ?_, ?_, ?_, ?_⟩ <;> decide

end Sys2Proof

namespace Sys2Proof.Machine

/-- Settles O56: the operand is the integer of a word, so that reducing it modulo 2^32 gives the word back. -/
theorem pseudoInstructionsExpand : Obligations.PseudoInstructionsExpand := by
  intro m n
  have hn : BitVec.ofInt 32 n.toInt = n := BitVec.ofInt_toInt
  simp only [pseudoMove, pseudoApproach, pseudoRotate, pseudoHalt, List.map, TraceLine.word, hn]
  exact ⟨rfl, rfl, rfl, rfl⟩

end Sys2Proof.Machine
end

section
/-! The state right after reset meets the invariants, what a falling edge measures, and the symbol table
(10_state.md R43, R45; 42_barcode.md R155 to R165). -/

namespace Sys2Proof.Machine

/-! ## Reset -/

/-- Settles O8: the parameters are the defaults of R6, and each group of registers holds the zeros of the reset table. -/
theorem resetStateMeetsTheInvariants : Obligations.ResetStateMeetsTheInvariants := by
  have hvalid : State.reset.par.Valid := by decide
  refine ⟨hvalid, ?queues, ?encoder, ?controller, barcodeInv_of_reset State.reset_bc⟩
  case queues => exact ⟨Nat.zero_le _, Nat.zero_le _⟩
  case encoder => exact ⟨fun _ => ⟨rfl, rfl⟩, fun _ => ⟨rfl, rfl⟩⟩
  case controller => exact controllerInv_of_zeros hvalid ⟨by decide, by decide⟩ rfl

/-! ## The falling edge -/

/-- R155, R156: what a bar writes to the threshold. -/
theorem recordBar_threshold_eq (b : BarcodeRegs) (policy : SeedPolicy) (t : Time) :
    (b.recordBar policy t).threshold =
      if b.threshValid = false ∨ (policy = .perSymbol ∧ b.edgeCount.val = 0) then
        BitVec.ofNat 65 (2 * (t - b.prevEdgeT).toNat)
      else b.threshold := by
  rw [recordBar_threshold]
  rcases seed_cases b policy (t - b.prevEdgeT) with ⟨hseeds, e⟩ | ⟨hvalid, hlater, e⟩
  · rw [e, if_pos hseeds]
  · rw [e, if_neg (by rw [hvalid]; exact fun h => h.elim nofun hlater)]

/-- The registers that a bar other than the fifth writes, the others as they were. -/
theorem recordBar_frame (b : BarcodeRegs) (policy : SeedPolicy) (t : Time) :
    b.recordBar policy t =
      { b with
        barW := (b.recordBar policy t).barW, prevEdgeT := t, edgeCount := (b.recordBar policy t).edgeCount
        threshold := (b.recordBar policy t).threshold, threshValid := true } := by
  unfold BarcodeRegs.recordBar
  rcases seed_cases b policy (b.interval t) with ⟨-, e⟩ | ⟨hvalid, -, e⟩ <;> rw [e]
  rw [← hvalid]

/-- Settles O22: an ignored edge by its two equations, a bar by `recordBar_frame` and one equation for each register. -/
theorem pedgeFMeasuresBarAndSeeds : Obligations.PedgeFMeasuresBarAndSeeds := by
  intro t s
  refine ⟨exec_pedgeF_of_idle t, fun hstate hdue => exec_pedgeF_of_spaceDue t hstate hdue, ?bar⟩
  intro hstate heven hcount
  refine ⟨_, exec_pedgeF_of_barDue t hstate (by omega) hcount, ?_, nextCount_val s.bc hcount,
    recordBar_barW_getElem s.bc _ t, recordBar_threshold_eq s.bc _ t⟩
  exact congrArg s.setBarcode (recordBar_frame s.bc s.par.seedPolicy t)

/-- Settles O25: of the outcomes of the two edges only the completed symbol changes a scan register or the channel, or leaves
the accumulating. -/
theorem classificationNeedsNineIntervals : Obligations.ClassificationNeedsNineIntervals := by
  intro t s u hexec hchange
  have unchanged {v : State} (hv : u = v) (htelemQ : v.telemQ = s.telemQ) (hassembled : v.bc.assembled = s.bc.assembled)
      (hreversed : v.bc.reversed = s.bc.reversed) (hstate : s.bc.state = .accumulating → v.bc.state = .accumulating) :
      s.bc.state = .accumulating ∧ s.bc.edgeCount.val = 8 := by
    subst hv
    rcases hchange with h | h | h | ⟨haccumulating, hidle⟩
    · exact absurd htelemQ h
    · exact absurd hassembled h
    · exact absurd hreversed h
    · exact absurd (hidle.symm.trans (hstate haccumulating)) nofun
  rcases hexec with hexec | hexec
  · rcases exec_pedgeF_cases s t with ⟨-, e⟩ | ⟨-, -, -, e⟩ | ⟨hstate, hcount, -⟩
    · exact unchanged (next_inj.mp (hexec.symm.trans e)) rfl rfl rfl id
    · exact unchanged (next_inj.mp (hexec.symm.trans e)) rfl (recordBar_assembled ..) (recordBar_reversed ..)
        (recordBar_state s.bc _ t).trans
    · exact ⟨hstate, hcount⟩
  · rcases exec_pedgeR_cases s t with ⟨-, e⟩ | ⟨-, -, e⟩ | ⟨-, -, e⟩
    · exact unchanged (next_inj.mp (hexec.symm.trans e)) rfl rfl rfl (fun _ => rfl)
    · exact unchanged (next_inj.mp (hexec.symm.trans e)) rfl rfl rfl id
    · exact unchanged (next_inj.mp (hexec.symm.trans e)) rfl rfl rfl id

/-! ## The symbol table -/

theorem lookup_eq_none_of_not_mem {α β : Type} [BEq α] [LawfulBEq α] {l : List (α × β)} {a : α}
    (h : a ∉ l.map Prod.fst) : l.lookup a = none := by
  rw [List.lookup_eq_none_iff]
  intro p hp
  exact bne_iff_ne.mpr fun heq => h (List.mem_map.mpr ⟨p, hp, heq.symm⟩)

/-- R162: a pattern in no table gives the character `~`. -/
theorem decodeSymbol_of_not_mem {bars spaces : List Bool}
    (h : bars ∉ barTable.map Prod.fst ∨ spaces ∉ spaceTable.map Prod.fst) : decodeSymbol bars spaces = noMatch := by
  have hindex : symbolIndex bars spaces = 0 := by
    unfold symbolIndex
    rcases h with h | h
    · rw [lookup_eq_none_of_not_mem h]
    · rw [lookup_eq_none_of_not_mem h]
      cases barTable.lookup bars <;> rfl
  rw [decodeSymbol, hindex]
  rfl

/-- Settles O24: the forty entries are evaluated, and any other pair of patterns misses a table. -/
theorem symbolTableMapsPatternsToCharacters : Obligations.SymbolTableMapsPatternsToCharacters :=
  ⟨by decide, fun _ _ h => decodeSymbol_of_not_mem h⟩

end Sys2Proof.Machine
end

section
/-! Step 3 of a control tick, written out on the registers (44_controller.md): the equation of each outcome under its conditions, the
values of the speed, the corrections and the capture, and the statements mode by mode. -/

namespace Sys2Proof.Machine

/-! ## The outcomes under their conditions -/

section DistanceTick

/-- A tick in the zero-control zone: the law stored, the motors stopped, the tick counted (R232, R233). -/
def State.zoneStop (s : State) : State :=
  (((s.storeLaw (s.pdControl s.distError) s.distError).setSpeed 0).setSteady (s.ctl.steadyCounter.toNat + 1)).emit .stop

/-- `zoneStop` written out on the registers. -/
theorem zoneStop_eq (s : State) :
    s.zoneStop = { s with
      ctl := { s.ctl with lastError := BitVec.ofInt 66 s.distError, ctrl := BitVec.ofInt 32 (s.pdControl s.distError),
                          speed := 0, steadyCounter := s.ctl.steadyCounter + 1 }
      actOut := s.actOut ++ [.stop] } := by
  rw [State.zoneStop, State.setSteady, ofNat_toNat_succ]
  rfl

/-- The end of a dwell: of the tick that fills it only the STOP is left (R233). -/
theorem zoneStop_enter (s : State) (m : Mode) :
    s.zoneStop.enter m = { s with
      ctl := { s.ctl with mode := m, lastError := 0, errSum := 0, steadyCounter := 0, ctrl := 0, speed := 0 }
      actOut := s.actOut ++ [.stop] } := rfl

variable {s : State} (dir : Actuation) (steer : Int) (finish : Int → State → State)

theorem distanceTick_of_counting (hzone : s.distError ≤ s.par.tolTicks)
    (hopen : s.ctl.steadyCounter.toNat + 1 < s.par.steadyWindow) :
    s.distanceTick dir steer finish = s.zoneStop := by
  rcases distanceTick_cases s dir steer finish with ⟨-, -, h⟩ | ⟨-, hfull, -⟩ | ⟨hout, -⟩ | ⟨hout, -⟩
  · exact h
  all_goals omega

theorem distanceTick_of_full (hzone : s.distError ≤ s.par.tolTicks)
    (hfull : s.par.steadyWindow ≤ s.ctl.steadyCounter.toNat + 1) :
    s.distanceTick dir steer finish = finish s.distError s.zoneStop := by
  rcases distanceTick_cases s dir steer finish with ⟨-, hopen, -⟩ | ⟨-, -, h⟩ | ⟨hout, -⟩ | ⟨hout, -⟩
  case inr.inl => exact h
  all_goals omega

theorem distanceTick_of_driving (hout : (s.par.tolTicks : Int) < s.distError) (hctrl : 0 < s.pdControl s.distError) :
    s.distanceTick dir steer finish =
      (((s.storeLaw (s.pdControl s.distError) s.distError).setSteady 0).setSpeed
        (s.scaledSpeed (s.pdControl s.distError))).emitAll
          (dir :: .speed (BitVec.ofNat 16 (s.scaledSpeed (s.pdControl s.distError))) :: tiltWords steer) := by
  rcases distanceTick_cases s dir steer finish with ⟨hzone, -⟩ | ⟨hzone, -⟩ | ⟨-, -, h⟩ | ⟨-, hstop, -⟩
  case inr.inr.inl => exact h
  all_goals omega

theorem distanceTick_of_stopping (hout : (s.par.tolTicks : Int) < s.distError) (hctrl : s.pdControl s.distError ≤ 0) :
    s.distanceTick dir steer finish =
      (((s.storeLaw (s.pdControl s.distError) s.distError).setSteady 0).setSpeed 0).emit .stop := by
  rcases distanceTick_cases s dir steer finish with ⟨hzone, -⟩ | ⟨hzone, -⟩ | ⟨-, hdrive, -⟩ | ⟨-, -, h⟩
  case inr.inr.inr => exact h
  all_goals omega

end DistanceTick

section OtherTicks
variable {s : State}

theorem finishForward_of_overshoot {e : Int} (h : e < -(s.par.tolTicks : Int)) :
    finishForward e s = s.enter .reverseTransition := if_pos h

theorem finishForward_of_settled {e : Int} (h : -(s.par.tolTicks : Int) ≤ e) : finishForward e s = s.enter .idle :=
  if_neg (not_lt.mpr h)

theorem reverseTransitionTick_of_counting (h : s.ctl.steadyCounter.toNat + 1 < s.par.rtDwellTicks) :
    reverseTransitionTick s = (s.emit .stop).setSteady (s.ctl.steadyCounter.toNat + 1) :=
  if_neg (not_le.mpr h)

theorem reverseTransitionTick_of_full (h : s.par.rtDwellTicks ≤ s.ctl.steadyCounter.toNat + 1) :
    reverseTransitionTick s = capture ((s.emit .stop).setSteady (s.ctl.steadyCounter.toNat + 1)) :=
  if_pos h

/-- `steady_counter` after a Turn tick, before a mode entry (R245). -/
def State.turnSteady (s : State) : Nat := if s.settled s.turnError then s.ctl.steadyCounter.toNat + 1 else 0

/-- The registers after the law of a Turn tick (R245). -/
def State.turnLaw (s : State) : State :=
  (((s.setErrSum (s.nextErrSum s.turnError)).storeLaw (s.pidControl s.turnError) s.turnError).setSpeed
    (s.scaledSpeed (s.pidControl s.turnError))).setSteady s.turnSteady

theorem turnTick_of_rotating (h : s.turnSteady < s.par.steadyWindow) :
    turnTick s = s.turnLaw.emitAll
      [if 0 < s.pidControl s.turnError then .rcw else .rccw,
       .speed (BitVec.ofNat 16 (s.scaledSpeed (s.pidControl s.turnError)))] :=
  if_neg (not_le.mpr h)

theorem turnTick_of_full (h : s.par.steadyWindow ≤ s.turnSteady) : turnTick s = (s.turnLaw.emit .stop).enter .idle :=
  if_pos h

end OtherTicks

/-! ## The values -/

/-- The speed register and the SPEED word hold the floor of the rule (R236). -/
theorem ofNat_scaledSpeed (s : State) (c : Int) :
    BitVec.ofNat 16 (s.scaledSpeed c) = BitVec.ofInt 16 (|c| * s.par.speedMax / 65536) := by
  rw [← scaledSpeed_eq_floor, BitVec.ofInt_natCast]

theorem tiltWords_eq (steer : Int) :
    tiltWords steer =
      if 0 < steer then List.replicate steer.toNat .tiltr else List.replicate (-steer).toNat .tiltl := by
  rcases tiltWords_cases steer with ⟨h, e⟩ | ⟨h, e⟩
  · rw [e, if_pos h]
  · rw [e, if_neg (not_lt.mpr h)]

/-- R237, the sign of the difference written out. -/
theorem wdSteer_eq (s : State) :
    s.wdSteer =
      if 0 < s.left - s.right then -((min (s.par.wdGain * (s.left - s.right).natAbs) s.par.tiltCap : Nat) : Int)
      else if s.left - s.right < 0 then ((min (s.par.wdGain * (s.left - s.right).natAbs) s.par.tiltCap : Nat) : Int)
      else 0 := by
  unfold State.wdSteer sign
  split
  · exact Int.neg_one_mul _
  · split
    · exact Int.one_mul _
    · exact Int.zero_mul _

/-- R238 over the integers. -/
theorem lineSteer_eq (s : State) :
    s.lineSteer =
      (if s.snap.leftBlack then (s.par.lineCorrMult : Int) * s.par.wdGain else 0) -
        (if s.snap.rightBlack then (s.par.lineCorrMult : Int) * s.par.wdGain else 0) := by
  rw [State.lineSteer, Nat.cast_mul]

/-- R243: the tilt words of the correction of the opposite sign. -/
theorem tiltWords_neg_wdSteer (s : State) :
    tiltWords (-s.wdSteer) =
      if 0 < s.left - s.right then
        List.replicate (min (s.par.wdGain * (s.left - s.right).natAbs) s.par.tiltCap) .tiltr
      else if s.left - s.right < 0 then
        List.replicate (min (s.par.wdGain * (s.left - s.right).natAbs) s.par.tiltCap) .tiltl
      else [] := by
  rw [wdSteer_eq]
  generalize min (s.par.wdGain * (s.left - s.right).natAbs) s.par.tiltCap = calls
  split
  · rw [Int.neg_neg]
    rcases Nat.eq_zero_or_pos calls with rfl | hpos
    · rfl
    · rw [tiltWords, if_pos (Int.natCast_pos.mpr hpos), Int.natAbs_natCast]
  · split
    · simp [tiltWords]
    · rfl

/-- A value in the range of a count is stored whole. -/
theorem toNat_ofInt_count {x : Int} (hlow : 0 ≤ x) (hhigh : x ≤ 2 ^ 64 - 1) : ((BitVec.ofInt 64 x).toNat : Int) = x := by
  rw [BitVec.toNat_ofInt]
  omega

section Capture
variable (s : State)

theorem left_range : 0 ≤ s.left ∧ s.left ≤ 2 ^ 64 - 1 := by
  have := s.enc.leftTicks.isLt
  simp only [State.left]
  omega

theorem right_range : 0 ≤ s.right ∧ s.right ≤ 2 ^ 64 - 1 := by
  have := s.enc.rightTicks.isLt
  simp only [State.right]
  omega

theorem capture_left : ((capture s).enc.leftTicks.toNat : Int) = max (s.left - s.right) 0 := by
  have := left_range s
  have := right_range s
  exact toNat_ofInt_count (by omega) (by omega)

theorem capture_right : ((capture s).enc.rightTicks.toNat : Int) = max (s.right - s.left) 0 := by
  have := left_range s
  have := right_range s
  have hneg : max (-(s.left - s.right)) 0 = max (s.right - s.left) 0 := by rw [Int.neg_sub]
  rw [← hneg]
  exact toNat_ofInt_count (by omega) (by omega)

theorem capture_target :
    ((capture s).ctl.targetTicks.toNat : Int) =
      min (max (s.left - s.target) 0 + max (s.left - s.right) 0) (2 ^ 64 - 1) :=
  toNat_ofInt_count (by omega) (by omega)

/-- What the capture writes besides the counts and the target is what `enter` writes (R241). -/
theorem capture_frame :
    capture s = { s with
      enc := { s.enc with leftTicks := (capture s).enc.leftTicks, rightTicks := (capture s).enc.rightTicks }
      ctl := { s.ctl with mode := .reverse, targetTicks := (capture s).ctl.targetTicks, lastError := 0, errSum := 0,
                          steadyCounter := 0, ctrl := 0, speed := 0 } } := rfl

end Capture

/-! ## The modes -/

/-- Settles O40, by the equation of Idle. -/
theorem idleTickEmitsStop : Obligations.IdleTickEmitsStop :=
  fun _ h => behave_of_idle h

/-- Forward and BarcodeApproach on the target that the obstacle override leaves (R230). -/
theorem behave_eq_distanceTick {s : State} (hmode : s.ctl.mode = .forward ∨ s.ctl.mode = .barcodeApproach)
    {target : BitVec 64}
    (htarget : target = if s.snap.distance.toInt < s.par.obstacleCm * 65536 then 0 else s.ctl.targetTicks) :
    behave s = (s.setTarget target).distanceTick .fwd
      (s.wdSteer + if s.ctl.mode = .forward then s.lineSteer else 0) finishForward := by
  rw [behave_of_forward_or_approach hmode, obstacleOverride_eq, htarget]

/-- Settles O41: the tick in the zone, and at the end of the dwell the two things it can enter. -/
theorem forwardZoneStopsAndSettles : Obligations.ForwardZoneStopsAndSettles := by
  intro s hmode target e u c n entered hzone
  have heq := behave_eq_distanceTick hmode (target := target) rfl
  have he : (s.setTarget target).distError = e := rfl
  have hc : (s.setTarget target).pdControl e = c := rfl
  refine ⟨fun hopen => ?counting, fun hfull hovershoot => ?overshoot, fun hfull hsettled => ?settled⟩
  case counting =>
    rw [heq, distanceTick_of_counting (s := s.setTarget target) .fwd _ finishForward hzone hopen, zoneStop_eq, he, hc]
    rfl
  case overshoot =>
    rw [heq, distanceTick_of_full (s := s.setTarget target) .fwd _ finishForward hzone hfull, he,
      finishForward_of_overshoot (s := (s.setTarget target).zoneStop) hovershoot, zoneStop_enter]
    rfl
  case settled =>
    rw [heq, distanceTick_of_full (s := s.setTarget target) .fwd _ finishForward hzone hfull, he,
      finishForward_of_settled (s := (s.setTarget target).zoneStop) hsettled, zoneStop_enter]
    rfl

/-- Settles O42: the tick outside the zone, with the speed and the corrections in the form of their rules. -/
theorem forwardDrivesOutsideZone : Obligations.ForwardDrivesOutsideZone := by
  intro s hmode target e u c v k line diff calls steer hout
  have heq := behave_eq_distanceTick hmode (target := target) rfl
  have hsteer : (s.wdSteer + if s.ctl.mode = .forward then s.lineSteer else 0) = steer := by
    have hcalls : ((min (s.par.wdGain * (s.left - s.right).natAbs) s.par.tiltCap : Nat) : Int) = calls := by
      simp only [Nat.cast_min, Nat.cast_mul, Int.natCast_natAbs]
      rfl
    rw [wdSteer_eq, hcalls, lineSteer_eq]
  rw [heq, hsteer]
  refine ⟨fun hctrl => ?driving, fun hctrl => ?stopping⟩
  case driving =>
    have hv : BitVec.ofNat 16 ((s.setTarget target).scaledSpeed c) = v := by
      rw [ofNat_scaledSpeed, abs_of_pos hctrl]
      rfl
    rw [distanceTick_of_driving (s := s.setTarget target) .fwd steer finishForward hout hctrl, tiltWords_eq, ← hv,
      List.append_assoc]
    rfl
  case stopping =>
    rw [distanceTick_of_stopping (s := s.setTarget target) .fwd steer finishForward hout hctrl]
    rfl

/-- Settles O43: the four outcomes of the distance law with BWD, and a dwell that enters Idle. -/
theorem reverseTickDrivesBackwards : Obligations.ReverseTickDrivesBackwards := by
  intro s hmode e u c v diff calls n law
  rw [behave_of_reverse hmode]
  refine ⟨fun hzone hopen => ?counting, fun hzone hfull => ?settled, fun hout hctrl => ?driving,
    fun hout hctrl => ?stopping⟩
  case counting =>
    rw [distanceTick_of_counting (s := s) .bwd _ _ hzone hopen, zoneStop_eq]
    rfl
  case settled =>
    rw [distanceTick_of_full (s := s) .bwd _ _ hzone hfull, zoneStop_enter]
  case driving =>
    have hv : BitVec.ofNat 16 (s.scaledSpeed c) = v := by rw [ofNat_scaledSpeed, abs_of_pos hctrl]
    rw [distanceTick_of_driving (s := s) .bwd _ _ hout hctrl, tiltWords_neg_wdSteer, ← hv, List.append_assoc]
    rfl
  case stopping =>
    rw [distanceTick_of_stopping (s := s) .bwd _ _ hout hctrl]
    rfl

/-- Settles O44: the counting tick by its equation, the last one by the values of the capture. -/
theorem reverseTransitionDwellsThenCaptures : Obligations.ReverseTransitionDwellsThenCaptures := by
  intro s hmode l r overshoot
  rw [behave_of_reverseTransition hmode]
  refine ⟨fun hopen => ?counting, fun hfull => ?captured⟩
  case counting =>
    rw [reverseTransitionTick_of_counting hopen, ← ofNat_toNat_succ]
    rfl
  case captured =>
    rw [reverseTransitionTick_of_full hfull]
    exact ⟨capture_frame _, capture_left _, capture_right _, capture_target _⟩

/-- Settles O53, on the values of the capture: below 2^63 the cap of the target plays no part. -/
theorem captureKeepsOvershootAndDifferential : Obligations.CaptureKeepsOvershootAndDifferential := by
  intro s hleft t
  have hl : (t.enc.leftTicks.toNat : Int) = max (s.left - s.right) 0 := capture_left s
  have hr : (t.enc.rightTicks.toNat : Int) = max (s.right - s.left) 0 := capture_right s
  have ht : (t.ctl.targetTicks.toNat : Int) =
      min (max (s.left - s.target) 0 + max (s.left - s.right) 0) (2 ^ 64 - 1) := capture_target s
  simp only [State.left, State.right, State.target] at hl hr ht
  refine ⟨rfl, ?_, ?_⟩ <;> omega

/-- Settles O45: the steady count and the speed in the form of their rules, then the two outcomes of the tick. -/
theorem turnTickRunsPidLaw : Obligations.TurnTickRunsPidLaw := by
  intro s hmode e sum uw c v steady
  have he : s.turnError = e := rfl
  have hsum : s.nextErrSum e = sum := rfl
  have hc : s.pidControl e = c := rfl
  have hv : BitVec.ofNat 16 (s.scaledSpeed c) = v := ofNat_scaledSpeed s c
  have hsteady : s.turnSteady = steady := by
    simp only [State.turnSteady, State.settled, Int.natCast_natAbs]
    rfl
  rw [behave_of_turn hmode, ← hsteady]
  refine ⟨fun hopen => ?rotating, fun hfull => ?settled⟩
  case rotating =>
    rw [turnTick_of_rotating hopen, State.turnLaw, he, hsum, hc, hv]
    simp only [State.setErrSum, State.storeLaw, State.setSpeed, State.setSteady, State.emitAll, hv]
  case settled =>
    rw [turnTick_of_full hfull, State.turnLaw]
    simp only [State.setErrSum, State.storeLaw, State.setSpeed, State.setSteady, State.emit, State.emitAll, State.enter]

/-- Settles O46: the three cases of the definition, and for operands in range one of them each. -/
theorem wrapOneEightyIsShortestWay : Obligations.WrapOneEightyIsShortestWay := by
  have hone : one = 65536 := rfl
  refine ⟨fun raw => ?definition, by decide, by decide, fun target heading htarget htarget' hheading hheading' => ?range⟩
  case definition =>
    rcases wrap180_cases raw with ⟨h, e⟩ | ⟨h, e⟩ | ⟨h, h', e⟩ <;> rw [e] <;> omega
  case range =>
    rcases wrap180_cases (target * 65536 - heading) with ⟨h, e⟩ | ⟨h, e⟩ | ⟨h, h', e⟩
    · exact ⟨by omega, by omega, -1, by omega, .inl rfl⟩
    · exact ⟨by omega, by omega, 1, by omega, .inr (.inr rfl)⟩
    · exact ⟨by omega, by omega, 0, by omega, .inr (.inl rfl)⟩

end Sys2Proof.Machine
end

section
/-! Step 4 and the tick as a whole (44_controller.md R211, R255, R257; 45_actuation_telemetry.md R279, R289 to R297; 60_exceptions.md
R301 to R307): the telemetry step under its conditions, what a tick emits, which mode it leaves, what it reports. -/

namespace Sys2Proof.Machine

/-! ## Step 4 under its conditions -/

section TelemetryStep
variable {lockFail : Byte} {s : State}

theorem telemPeriod_eq (s : State) :
    s.telemPeriod = if s.ctl.mode = .idle then s.par.telemPeriodIdle else s.par.telemPeriodMove := by
  unfold State.telemPeriod
  cases s.ctl.mode <;> rfl

theorem telemetryStep_of_notDue (h : s.ctl.telemCounter.toNat + 1 < s.telemPeriod) :
    telemetryStep lockFail s = s.setTelemCounter (s.ctl.telemCounter.toNat + 1) :=
  if_neg (not_le.mpr h)

theorem telemetryStep_of_sent (hdue : s.telemDue) (hlock : lockFail.toNat < s.par.telemRetryMax) :
    telemetryStep lockFail s =
      ((s.setTelemCounter 0).emitAll (List.replicate (s.failedTries lockFail) .stop)).pushTelem (.status (statusFields s)) := by
  rcases telemetryStep_cases lockFail s with ⟨hnotDue, -⟩ | ⟨-, -, h⟩ | ⟨-, hskipped, -⟩
  · exact absurd hdue (not_le.mpr hnotDue)
  · exact h
  · exact absurd hlock (not_lt.mpr hskipped)

theorem telemetryStep_of_skipped (hdue : s.telemDue) (hlock : s.par.telemRetryMax ≤ lockFail.toNat) :
    telemetryStep lockFail s = (s.setTelemCounter 0).emitAll (List.replicate (s.failedTries lockFail) .stop) := by
  rcases telemetryStep_cases lockFail s with ⟨hnotDue, -⟩ | ⟨-, hsent, -⟩ | ⟨-, -, h⟩
  · exact absurd hdue (not_le.mpr hnotDue)
  · exact absurd hlock (not_le.mpr hsent)
  · exact h

/-- Where a record is due, its push is the bounded push of a tick that takes the lock (R290). -/
theorem telemetryStep_of_due (hdue : s.telemDue) :
    telemetryStep lockFail s = { s with
      ctl := { s.ctl with telemCounter := 0 }
      actOut := s.actOut ++ List.replicate (s.failedTries lockFail) .stop
      telemQ := if lockFail.toNat < s.par.telemRetryMax ∧ s.telemQ.length < s.par.telemDepth
        then s.telemQ ++ [.status (statusFields s)] else s.telemQ } := by
  by_cases hlock : lockFail.toNat < s.par.telemRetryMax
  · rw [telemetryStep_of_sent hdue hlock]
    by_cases hroom : s.telemQ.length < s.par.telemDepth
    · rw [if_pos ⟨hlock, hroom⟩, ← pushBounded_of_room _ hroom]
      rfl
    · rw [if_neg (fun h => hroom h.2), ← pushBounded_of_full (.status (statusFields s)) (not_lt.mp hroom)]
      rfl
  · rw [telemetryStep_of_skipped hdue (not_lt.mp hlock), if_neg (fun h => hlock h.1)]
    rfl

/-- The STOP words of step 4: one for each failed try, in a tick with a record due (R290). -/
theorem telemetryStep_actOut (lockFail : Byte) (s : State) :
    (telemetryStep lockFail s).actOut =
      s.actOut ++ List.replicate (if s.telemDue then s.failedTries lockFail else 0) .stop := by
  by_cases hdue : s.telemDue
  · rw [telemetryStep_of_due hdue, if_pos hdue]
  · rw [telemetryStep_of_notDue (not_le.mp hdue), if_neg hdue, State.setTelemCounter_actOut]
    exact (List.append_nil _).symm

/-- R63: a full channel stays as it is. -/
theorem telemetryStep_telemQ_of_full (lockFail : Byte) (h : s.par.telemDepth ≤ s.telemQ.length) :
    (telemetryStep lockFail s).telemQ = s.telemQ := by
  rcases telemetryStep_telemQ_cases lockFail s with e | ⟨r, e⟩
  · exact e
  · rw [e, pushBounded_of_full r h]

@[simp] theorem telemetryStep_mode (lockFail : Byte) (s : State) :
    (telemetryStep lockFail s).ctl.mode = s.ctl.mode := by rw [telemetryStep_ctl]
@[simp] theorem telemetryStep_targetTicks (lockFail : Byte) (s : State) :
    (telemetryStep lockFail s).ctl.targetTicks = s.ctl.targetTicks := by rw [telemetryStep_ctl]
@[simp] theorem telemetryStep_steadyCounter (lockFail : Byte) (s : State) :
    (telemetryStep lockFail s).ctl.steadyCounter = s.ctl.steadyCounter := by rw [telemetryStep_ctl]

end TelemetryStep

/-- Settles O39: with no command waiting the poll does nothing, and with neither period over the telemetry step counts. -/
theorem ctickRunsItsStepsInOrder : Obligations.CtickRunsItsStepsInOrder := by
  refine ⟨decodeEvent_ctick_word, fun lockFail s => ⟨exec_ctick lockFail s, ?_⟩⟩
  rintro ⟨hempty, hmove, hidle⟩
  have hnotDue : (behave s).ctl.telemCounter.toNat + 1 < (behave s).telemPeriod := by
    rw [telemPeriod_eq, behave_ctl_telemCounter, behave_par]
    split <;> assumption
  rw [exec_ctick, poll_of_empty hempty, telemetryStep_of_notDue hnotDue, behave_ctl_telemCounter, ← ofNat_toNat_succ]
  rfl

/-- The gains of the record, one by one (45_actuation_telemetry.md R291). -/
theorem activeGains_eq (c : ControllerRegs) :
    c.activeGains =
      (if c.mode = .turn then c.gains.kpT else c.gains.kpF, if c.mode = .turn then c.gains.kiT else c.gains.kiF,
       if c.mode = .turn then c.gains.kdT else c.gains.kdF) := by
  unfold ControllerRegs.activeGains
  cases c.mode <;> rfl

/-- Settles O49: below the period by `telemetryStep_of_notDue`, at it by `telemetryStep_of_due`. -/
theorem telemetryStepSendsStatusUnderLock : Obligations.TelemetryStepSendsStatusUnderLock := by
  intro lockFail s period f record
  have hperiod : s.telemPeriod = period := telemPeriod_eq s
  have hrecord : .status (statusFields s) = record := by
    rw [statusFields, activeGains_eq]
  rw [← hperiod, ← hrecord]
  refine ⟨fun hnotDue => ?_, fun hdue => telemetryStep_of_due hdue⟩
  rw [telemetryStep_of_notDue hnotDue, ← ofNat_toNat_succ]
  rfl

/-! ## A full Telemetry Channel (R297) -/

section FullChannel
variable (s : State) (q : List Record)

theorem runCommand_with_telemQ (c : Command) :
    runCommand c { s with telemQ := q } = { runCommand c s with telemQ := q } := by
  cases c with
  | setmodeIdle => rfl
  | setmodeFwd => rfl
  | setmodeBa => rfl
  | setmodeTurn => rfl
  | setticks n => simp only [runCommand, cmdSetticks]; split <;> rfl
  | setbear delta => rfl
  | setgain sel v => rfl
  | rstenc => cases hmode : s.ctl.mode <;> simp only [runCommand, cmdRstenc, hmode] <;> rfl

theorem poll_with_telemQ : poll { s with telemQ := q } = { poll s with telemQ := q } := by
  rcases poll_cases s with ⟨hq, e⟩ | ⟨w, rest, hq, ⟨_, hd⟩, e⟩ | ⟨w, rest, c, hq, hd, e⟩ <;> rw [e]
  · exact poll_of_empty (s := { s with telemQ := q }) hq
  · exact poll_of_decode_error (s := { s with telemQ := q }) hq hd
  · exact (poll_of_decode_ok (s := { s with telemQ := q }) hq hd).trans
      (runCommand_with_telemQ { s with cmdQ := rest } q c)

theorem distanceTick_with_telemQ (dir : Actuation) (steer : Int) {finish : Int → State → State}
    (hfinish : ∀ e u, finish e { u with telemQ := q } = { finish e u with telemQ := q }) :
    State.distanceTick { s with telemQ := q } dir steer finish = { s.distanceTick dir steer finish with telemQ := q } := by
  rcases distanceTick_cases s dir steer finish with ⟨hzone, hn, e⟩ | ⟨hzone, hn, e⟩ | ⟨hout, hc, e⟩ | ⟨hout, hc, e⟩ <;> rw [e]
  · exact distanceTick_of_counting (s := { s with telemQ := q }) dir steer finish hzone hn
  · exact (distanceTick_of_full (s := { s with telemQ := q }) dir steer finish hzone hn).trans
      (hfinish s.distError s.zoneStop)
  · exact distanceTick_of_driving (s := { s with telemQ := q }) dir steer finish hout hc
  · exact distanceTick_of_stopping (s := { s with telemQ := q }) dir steer finish hout hc

theorem finishForward_with_telemQ (e : Int) :
    finishForward e { s with telemQ := q } = { finishForward e s with telemQ := q } := by
  rcases finishForward_cases e s with ⟨h, e'⟩ | ⟨h, e'⟩ <;> rw [e']
  · exact finishForward_of_overshoot (s := { s with telemQ := q }) h
  · exact finishForward_of_settled (s := { s with telemQ := q }) h

theorem behave_with_telemQ : behave { s with telemQ := q } = { behave s with telemQ := q } := by
  rcases Mode.law_cases s.ctl.mode with hmode | hmode | hmode | hmode | hmode
  · rw [behave_of_idle hmode, behave_of_idle (s := { s with telemQ := q }) hmode]; rfl
  · rw [behave_eq_distanceTick hmode rfl, behave_eq_distanceTick (s := { s with telemQ := q }) hmode rfl]
    exact distanceTick_with_telemQ (s.setTarget _) q .fwd _ (fun e u => finishForward_with_telemQ u q e)
  · rw [behave_of_reverseTransition hmode, behave_of_reverseTransition (s := { s with telemQ := q }) hmode]
    rcases reverseTransitionTick_cases s with ⟨h, e⟩ | ⟨h, e⟩ <;> rw [e]
    · exact reverseTransitionTick_of_counting (s := { s with telemQ := q }) h
    · exact reverseTransitionTick_of_full (s := { s with telemQ := q }) h
  · rw [behave_of_reverse hmode, behave_of_reverse (s := { s with telemQ := q }) hmode]
    exact distanceTick_with_telemQ s q .bwd _ (fun _ _ => rfl)
  · rw [behave_of_turn hmode, behave_of_turn (s := { s with telemQ := q }) hmode]
    rcases turnTick_cases s with ⟨h, e⟩ | ⟨h, e⟩ <;> rw [e]
    · exact turnTick_of_full (s := { s with telemQ := q }) h
    · exact turnTick_of_rotating (s := { s with telemQ := q }) h

variable {q}

theorem telemetryStep_with_full_telemQ (lockFail : Byte) (hfull : s.par.telemDepth ≤ q.length) :
    telemetryStep lockFail { s with telemQ := q } = { telemetryStep lockFail s with telemQ := q } := by
  by_cases hdue : s.telemDue
  · rw [telemetryStep_of_due hdue, telemetryStep_of_due (s := { s with telemQ := q }) hdue,
      if_neg (fun h => absurd h.2 (not_lt.mpr hfull))]
  · rw [telemetryStep_of_notDue (not_le.mp hdue),
      telemetryStep_of_notDue (s := { s with telemQ := q }) (not_le.mp hdue)]
    rfl

end FullChannel

/-- Settles O50: the poll and step 3 do not read the channel, and step 4 leaves a full one alone. -/
theorem fullTelemetryNeverAffectsTick : Obligations.FullTelemetryNeverAffectsTick := by
  intro lockFail s t q hfull h
  obtain rfl := next_inj.mp h
  rw [exec_ctick, poll_with_telemQ, behave_with_telemQ, telemetryStep_with_full_telemQ]
  rwa [behave_par, poll_par]

/-! ## What a tick emits (R279) -/

/-- The words of a driving tick: a direction that the mode allows, one SPEED, and tilt words of one kind, none in Turn. -/
def DriveWords (p : Params) (m : Mode) (ws : List Actuation) : Prop :=
  ∃ (dir tilt : Actuation) (v : BitVec 16) (k : Nat), ws = dir :: .speed v :: List.replicate k tilt ∧
    (tilt = .tiltl ∨ tilt = .tiltr) ∧ k ≤ p.tiltCap + p.lineCorrMult * p.wdGain ∧
    ((dir = .fwd ∧ (m = .forward ∨ m = .barcodeApproach)) ∨ (dir = .bwd ∧ m = .reverse) ∨
     ((dir = .rcw ∨ dir = .rccw) ∧ m = .turn ∧ k = 0))

theorem tiltWords_eq_replicate (steer : Int) :
    ∃ tilt, (tilt = .tiltl ∨ tilt = .tiltr) ∧ tiltWords steer = List.replicate steer.natAbs tilt := by
  unfold tiltWords
  split
  · exact ⟨.tiltr, .inr rfl, rfl⟩
  · exact ⟨.tiltl, .inl rfl, rfl⟩

theorem distanceTick_actOut (s : State) (dir : Actuation) (steer : Int) {finish : Int → State → State}
    (hfinish : ∀ e u, (finish e u).actOut = u.actOut) :
    (s.distanceTick dir steer finish).actOut = s.actOut ++ [.stop] ∨
    ∃ v, (s.distanceTick dir steer finish).actOut = s.actOut ++ (dir :: .speed v :: tiltWords steer) := by
  rcases distanceTick_cases s dir steer finish with ⟨-, -, e⟩ | ⟨-, -, e⟩ | ⟨-, -, e⟩ | ⟨-, -, e⟩ <;> rw [e]
  · exact .inl rfl
  · exact .inl (hfinish _ _)
  · exact .inr ⟨_, rfl⟩
  · exact .inl rfl

theorem finishForward_actOut (e : Int) (s : State) : (finishForward e s).actOut = s.actOut := by
  rcases finishForward_cases e s with ⟨-, h⟩ | ⟨-, h⟩ <;> rw [h] <;> rfl

/-- A tick of a distance mode whose corrections are bounded as R237 and R238 say. -/
theorem distanceTick_words {s : State} {dir : Actuation} {steer : Int} {finish : Int → State → State}
    (hfinish : ∀ e u, (finish e u).actOut = u.actOut)
    (hsteer : steer.natAbs ≤ s.par.tiltCap + s.par.lineCorrMult * s.par.wdGain) {m : Mode}
    (hdir : (dir = .fwd ∧ (m = .forward ∨ m = .barcodeApproach)) ∨ (dir = .bwd ∧ m = .reverse)) :
    ∃ ws, (s.distanceTick dir steer finish).actOut = s.actOut ++ ws ∧ (ws = [.stop] ∨ DriveWords s.par m ws) := by
  rcases distanceTick_actOut s dir steer hfinish with e | ⟨v, e⟩
  · exact ⟨_, e, .inl rfl⟩
  · obtain ⟨tilt, htilt, hwords⟩ := tiltWords_eq_replicate steer
    refine ⟨_, e, .inr ⟨dir, tilt, v, steer.natAbs, by rw [hwords], htilt, hsteer, ?_⟩⟩
    exact hdir.imp_right .inl

theorem behave_words (s : State) :
    ∃ ws, (behave s).actOut = s.actOut ++ ws ∧ (ws = [.stop] ∨ DriveWords s.par s.ctl.mode ws) := by
  have hwd := wdSteer_natAbs_le s
  have hline := lineSteer_natAbs_le s
  have hneg : (-s.wdSteer).natAbs ≤ s.par.tiltCap + s.par.lineCorrMult * s.par.wdGain := by omega
  rcases Mode.law_cases s.ctl.mode with hmode | hmode | hmode | hmode | hmode
  · rw [behave_of_idle hmode]; exact ⟨_, rfl, .inl rfl⟩
  · rw [behave_eq_distanceTick hmode rfl]
    refine distanceTick_words (s := s.setTarget _) finishForward_actOut ?_ (.inl ⟨rfl, hmode⟩)
    rw [State.setTarget_par]
    split <;> omega
  · rw [behave_of_reverseTransition hmode]
    rcases reverseTransitionTick_cases s with ⟨-, e⟩ | ⟨-, e⟩ <;> rw [e] <;> exact ⟨_, rfl, .inl rfl⟩
  · rw [behave_of_reverse hmode]
    exact distanceTick_words (finish := fun _ u => u.enter .idle) (fun _ _ => rfl) hneg (.inr ⟨rfl, hmode⟩)
  · rw [behave_of_turn hmode]
    rcases turnTick_cases s with ⟨-, e⟩ | ⟨-, e⟩ <;> rw [e]
    · exact ⟨_, rfl, .inl rfl⟩
    · refine ⟨_, rfl, .inr ⟨_, .tiltl, _, 0, rfl, .inl rfl, Nat.zero_le _, .inr (.inr ⟨?_, hmode, rfl⟩)⟩⟩
      split
      · exact .inl rfl
      · exact .inr rfl

/-- Settles O51: the words of step 3 by `behave_words`, then the STOP words of step 4. -/
theorem tickEmitsOneOrderedSequence : Obligations.TickEmitsOneOrderedSequence := by
  intro lockFail s t h
  obtain rfl := next_inj.mp h
  obtain ⟨ws, hout, hwords⟩ := behave_words (poll s)
  rw [poll_par] at hwords
  refine ⟨ws, _, by rw [telemetryStep_actOut, hout, poll_actOut], ?_, hwords⟩
  have hpar : (behave (poll s)).par = s.par := by rw [behave_par, poll_par]
  split
  · exact hpar ▸ Nat.min_le_right _ _
  · exact Nat.zero_le _

/-! ## The mode (44_controller.md R255) -/

/-- Only the four SETMODE commands write the mode, each its own. -/
theorem runCommand_mode_cases (c : Command) (s : State) :
    (runCommand c s).ctl.mode = s.ctl.mode ∨ (c = .setmodeIdle ∧ (runCommand c s).ctl.mode = .idle) ∨
    (c = .setmodeFwd ∧ (runCommand c s).ctl.mode = .forward) ∨
    (c = .setmodeBa ∧ (runCommand c s).ctl.mode = .barcodeApproach) ∨
    (c = .setmodeTurn ∧ (runCommand c s).ctl.mode = .turn) := by
  cases c with
  | setmodeIdle => exact .inr (.inl ⟨rfl, rfl⟩)
  | setmodeFwd => exact .inr (.inr (.inl ⟨rfl, rfl⟩))
  | setmodeBa => exact .inr (.inr (.inr (.inl ⟨rfl, rfl⟩)))
  | setmodeTurn => exact .inr (.inr (.inr (.inr ⟨rfl, rfl⟩)))
  | setticks n => left; rw [runCommand, cmdSetticks]; split <;> rfl
  | setbear delta => exact .inl rfl
  | setgain sel v => exact .inl rfl
  | rstenc => left; rw [runCommand, cmdRstenc]; split <;> rfl

theorem exec_mode_of_not_command {i : Instr} {s t : State} (h : exec i s = .next t) (hformat : i.format ≠ .C)
    (hreset : i ≠ .reset) (hctick : ∀ f, i ≠ .ctick f) : t.ctl.mode = s.ctl.mode := by
  have of_frame {u : State} (hu : t = u) (hctl : u.ctl = s.ctl) : t.ctl.mode = s.ctl.mode := by rw [hu, hctl]
  induction i using Instr.kindCases with
  | reset => exact absurd rfl hreset
  | ledge _ => exact of_frame (exec_ledge_frame h).1 rfl
  | redge _ => exact of_frame (exec_redge_frame h).1 rfl
  | pedgeR _ => exact of_frame (exec_pedgeR_frame h) rfl
  | pedgeF _ => exact of_frame (exec_pedgeF_frame h) rfl
  | snap _ => exact of_frame (exec_snap_frame h) rfl
  | cpush _ => exact of_frame (exec_cpush_frame h) rfl
  | ctick f => exact absurd rfl (hctick f)
  | tpop => exact of_frame (exec_tpop_frame h) rfl
  | command c => exact absurd (by cases c <;> rfl) hformat
  | actuation a => exact of_frame (exec_actuation_eq h) rfl
  | record r => exact of_frame (exec_record_eq h) rfl

theorem poll_mode_cases (s : State) :
    (poll s).ctl.mode = s.ctl.mode ∨ (polledCommand s = some .setmodeIdle ∧ (poll s).ctl.mode = .idle) ∨
    (polledCommand s = some .setmodeFwd ∧ (poll s).ctl.mode = .forward) ∨
    (polledCommand s = some .setmodeBa ∧ (poll s).ctl.mode = .barcodeApproach) ∨
    (polledCommand s = some .setmodeTurn ∧ (poll s).ctl.mode = .turn) := by
  rcases poll_cases s with ⟨-, e⟩ | ⟨_, _, -, -, e⟩ | ⟨w, rest, c, hq, hd, e⟩ <;> rw [e]
  · exact .inl rfl
  · exact .inl rfl
  · have hpolled : polledCommand s = some c := by simp [polledCommand, hq, hd, Except.toOption]
    rw [hpolled]
    simp only [Option.some_inj]
    exact runCommand_mode_cases c { s with cmdQ := rest }

section ModeEnds
variable {s : State}

theorem behave_mode_of_idle (hmode : s.ctl.mode = .idle) : (behave s).ctl.mode = s.ctl.mode := by
  rw [behave_of_idle hmode]; rfl

/-- The ends of the dwell of Forward and BarcodeApproach (R233). -/
theorem behave_mode_of_forward (hmode : s.ctl.mode = .forward ∨ s.ctl.mode = .barcodeApproach) :
    let target : BitVec 64 := if s.snap.distance.toInt < s.par.obstacleCm * 65536 then 0 else s.ctl.targetTicks
    let e : Int := (target.toNat : Int) - s.enc.leftTicks.toNat
    (behave s).ctl.mode = s.ctl.mode ∨
    ((behave s).ctl.mode = .idle ∧ s.par.steadyWindow ≤ s.ctl.steadyCounter.toNat + 1 ∧
      -(s.par.tolTicks : Int) ≤ e ∧ e ≤ s.par.tolTicks) ∨
    ((behave s).ctl.mode = .reverseTransition ∧ s.par.steadyWindow ≤ s.ctl.steadyCounter.toNat + 1 ∧
      e < -(s.par.tolTicks : Int)) := by
  intro target e
  rw [behave_eq_distanceTick hmode (target := target) rfl]
  rcases distanceTick_cases (s.setTarget target) .fwd (s.wdSteer + if s.ctl.mode = .forward then s.lineSteer else 0)
    finishForward with ⟨-, -, h⟩ | ⟨hzone, hfull, h⟩ | ⟨-, -, h⟩ | ⟨-, -, h⟩ <;> rw [h]
  · exact .inl rfl
  · by_cases hovershoot : e < -(s.par.tolTicks : Int)
    · exact .inr (.inr ⟨congrArg (fun u : State => u.ctl.mode)
        (finishForward_of_overshoot (s := (s.setTarget target).zoneStop) hovershoot), hfull, hovershoot⟩)
    · have hsettled := not_lt.mp hovershoot
      exact .inr (.inl ⟨congrArg (fun u : State => u.ctl.mode)
        (finishForward_of_settled (s := (s.setTarget target).zoneStop) hsettled), hfull, hsettled, hzone⟩)
  · exact .inl rfl
  · exact .inl rfl

/-- The end of the dwell of ReverseTransition (R240). -/
theorem behave_mode_of_reverseTransition (hmode : s.ctl.mode = .reverseTransition) :
    (behave s).ctl.mode = s.ctl.mode ∨
    ((behave s).ctl.mode = .reverse ∧ s.par.rtDwellTicks ≤ s.ctl.steadyCounter.toNat + 1) := by
  rw [behave_of_reverseTransition hmode]
  rcases reverseTransitionTick_cases s with ⟨-, h⟩ | ⟨hfull, h⟩ <;> rw [h]
  · exact .inl rfl
  · exact .inr ⟨rfl, hfull⟩

/-- The end of the dwell of Reverse (R243). -/
theorem behave_mode_of_reverse (hmode : s.ctl.mode = .reverse) :
    (behave s).ctl.mode = s.ctl.mode ∨
    ((behave s).ctl.mode = .idle ∧ s.par.steadyWindow ≤ s.ctl.steadyCounter.toNat + 1 ∧
      (s.ctl.targetTicks.toNat : Int) - s.enc.leftTicks.toNat ≤ s.par.tolTicks) := by
  rw [behave_of_reverse hmode]
  rcases distanceTick_cases s .bwd (-s.wdSteer) (fun _ u => u.enter .idle) with
    ⟨-, -, h⟩ | ⟨hzone, hfull, h⟩ | ⟨-, -, h⟩ | ⟨-, -, h⟩ <;> rw [h]
  · exact .inl rfl
  · exact .inr ⟨rfl, hfull, hzone⟩
  · exact .inl rfl
  · exact .inl rfl

/-- The end of the settle window of Turn (R245): a window of at least one tick is full only in a tick within the tolerance. -/
theorem behave_mode_of_turn (hmode : s.ctl.mode = .turn) (hwindow : 1 ≤ s.par.steadyWindow) :
    (behave s).ctl.mode = s.ctl.mode ∨
    ((behave s).ctl.mode = .idle ∧ s.par.steadyWindow ≤ s.ctl.steadyCounter.toNat + 1 ∧
      |wrap180 ((s.ctl.targetBearing.toNat : Int) * 65536 - s.snap.heading.toInt)| ≤ s.par.tolDeg * 65536) := by
  rw [behave_of_turn hmode]
  rcases turnTick_cases s with ⟨hfull, h⟩ | ⟨-, h⟩ <;> rw [h]
  · right
    by_cases hsettled : s.settled s.turnError
    · rw [if_pos hsettled] at hfull
      rw [State.settled, Int.natCast_natAbs] at hsettled
      exact ⟨rfl, hfull, hsettled⟩
    · rw [if_neg hsettled] at hfull
      omega
  · exact .inl rfl

end ModeEnds

/-- Settles O52: the rows other than the tick's by what each kind of instruction writes, the tick's mode by mode. -/
theorem modeChangesOnlyAsListed : Obligations.ModeChangesOnlyAsListed := by
  refine ⟨fun i s t h hformat hreset hctick => exec_mode_of_not_command h hformat hreset hctick, ?reset, ?command,
    poll_mode_cases, ?tick⟩
  case reset =>
    intro s t h
    obtain rfl := next_inj.mp h
    rfl
  case command =>
    intro c s t h
    obtain rfl := exec_command_eq h
    exact runCommand_mode_cases c s
  case tick =>
    intro lockFail s t h hwindow p target e full
    obtain rfl := next_inj.mp h
    have hpar : p.par = s.par := poll_par s
    simp only [telemetryStep_mode, full, ← hpar]
    rw [← hpar] at hwindow
    rcases Mode.law_cases p.ctl.mode with hmode | hmode | hmode | hmode | hmode
    · exact .inl (behave_mode_of_idle hmode)
    · rcases behave_mode_of_forward hmode with h | ⟨h, hfull, hlow, hhigh⟩ | ⟨h, hfull, hovershoot⟩
      · exact .inl h
      · exact .inr (.inl ⟨hmode, h, hfull, hlow, hhigh⟩)
      · exact .inr (.inr (.inl ⟨hmode, h, hfull, hovershoot⟩))
    · rcases behave_mode_of_reverseTransition hmode with h | ⟨h, hfull⟩
      · exact .inl h
      · exact .inr (.inr (.inr (.inl ⟨hmode, h, hfull⟩)))
    · rcases behave_mode_of_reverse hmode with h | ⟨h, hfull, hzone⟩
      · exact .inl h
      · exact .inr (.inr (.inr (.inr (.inl ⟨hmode, h, hfull, hzone⟩))))
    · rcases behave_mode_of_turn hmode hwindow with h | ⟨h, hfull, hsettled⟩
      · exact .inl h
      · exact .inr (.inr (.inr (.inr (.inr ⟨hmode, h, hfull, hsettled⟩))))

end Sys2Proof.Machine
end

section
/-! What a tick and a falling edge report (60_exceptions.md R301 to R307), the obstacle in the tick of its command (44_controller.md
R257), and a run at rest in the tolerance (R256). -/

namespace Sys2Proof.Machine

/-! ## The obstacle (44_controller.md R230, R304) -/

theorem distanceTick_targetTicks (s : State) (dir : Actuation) (steer : Int) {finish : Int → State → State}
    (hfinish : ∀ e u, ∃ m, finish e u = u.enter m) :
    (s.distanceTick dir steer finish).ctl.targetTicks = s.ctl.targetTicks := by
  rcases distanceTick_cases s dir steer finish with ⟨-, -, h⟩ | ⟨hzone, hfull, -⟩ | ⟨-, -, h⟩ | ⟨-, -, h⟩
  · rw [h]; rfl
  · obtain ⟨m, hm⟩ := hfinish s.distError s.zoneStop
    rw [distanceTick_of_full dir steer finish hzone hfull, hm]
    rfl
  · rw [h]; rfl
  · rw [h]; rfl

theorem behave_targetTicks_of_obstacle {s : State} (hmode : s.ctl.mode = .forward ∨ s.ctl.mode = .barcodeApproach)
    (hobstacle : s.snap.distance.toInt < s.par.obstacleCm * 65536) : (behave s).ctl.targetTicks = 0 := by
  rw [behave_eq_distanceTick hmode rfl, if_pos hobstacle, distanceTick_targetTicks _ _ _ finishForward_enters]
  rfl

theorem errorClasses_ctick (lockFail : Byte) (s : State) :
    errorClasses (.ctick lockFail) s = behaveReport (poll s) ++ telemetryReport lockFail (behave (poll s)) := rfl

theorem behaveReport_eq (s : State) :
    behaveReport s =
      if (s.ctl.mode = .forward ∨ s.ctl.mode = .barcodeApproach) ∧ s.snap.distance.toInt < s.par.obstacleCm * 65536 then [.e4]
      else [] := by
  unfold behaveReport
  cases s.ctl.mode <;> simp [State.obstacle, State.distance, Q16.raw, one]

/-- Settles O48: the popped SETMODE.FWD leaves the mode Forward, where the obstacle clears the target and is reported. -/
theorem obstacleForcesTargetInOneTick : Obligations.ObstacleForcesTargetInOneTick := by
  intro lockFail s rest hvalid hq hobstacle
  obtain ⟨-, -, -, -, -, -, -, -, -, -, -, -, -, -, -, -, hnodup⟩ := hvalid
  have hmode : (poll s).ctl.mode = .forward := by
    rw [poll_of_decode_ok hq (decodeCommand_encodeCommand hnodup .setmodeFwd)]; rfl
  have hnear : (poll s).snap.distance.toInt < (poll s).par.obstacleCm * 65536 := by rwa [poll_snap, poll_par]
  refine ⟨_, exec_ctick lockFail s, ?_, ?_⟩
  · rw [telemetryStep_targetTicks, behave_targetTicks_of_obstacle (.inl hmode) hnear]
  · rw [errorClasses_ctick, behaveReport_eq, if_pos ⟨.inl hmode, hnear⟩]
    exact List.mem_cons_self

/-! ## The classes of a tick and of a falling edge -/

/-- R305 and R303: E5 for each failed try, then E3 where the lock is taken and the channel is full. -/
theorem telemetryReport_eq (lockFail : Byte) (s : State) :
    telemetryReport lockFail s =
      List.replicate (if s.telemDue then s.failedTries lockFail else 0) .e5 ++
        (if s.telemDue ∧ lockFail.toNat < s.par.telemRetryMax ∧ s.par.telemDepth ≤ s.telemQ.length then [.e3] else []) := by
  by_cases hdue : s.telemDue
  · rw [telemetryReport, if_pos hdue, if_pos hdue]
    congr 1
    by_cases hlock : lockFail.toNat < s.par.telemRetryMax
    · rw [if_pos hlock]
      by_cases hfull : s.par.telemDepth ≤ s.telemQ.length
      · rw [pushReport_of_full hfull, if_pos ⟨hdue, hlock, hfull⟩]
      · rw [pushReport_of_room (not_le.mp hfull), if_neg (fun h => hfull h.2.2)]
    · rw [if_neg hlock, if_neg (fun h => hlock h.2.1)]
  · rw [telemetryReport, if_neg hdue, if_neg hdue, if_neg (fun h => hdue h.1)]
    rfl

theorem errorClasses_pedgeF_of_not_ninth {s : State} (t : Time)
    (h : ¬ (s.bc.state = .accumulating ∧ s.bc.edgeCount.val = 8)) : errorClasses (.pedgeF t) s = [] := by
  simp only [errorClasses, pedgeFReport]
  cases hstate : s.bc.state with
  | idle => rfl
  | accumulating => rw [if_neg (fun hcount => h ⟨hstate, hcount⟩)]

/-- The record of a complete symbol, if it has one (42_barcode.md R167, R168). -/
theorem symbolRecord_cases (b : BarcodeRegs) :
    b.symbolRecord = none ∨ b.symbolRecord = some (.diag 0x01) ∨ ∃ payload, b.symbolRecord = some (.barcode payload) := by
  rcases classify_cases b 0 with ⟨-, -, h, -⟩ | ⟨-, -, -, h, -⟩ | ⟨-, -, -, h, -⟩ | ⟨-, -, h, -⟩ | ⟨_, -, -, -, h, -⟩
  · exact .inl h
  · exact .inl h
  · exact .inr (.inl h)
  · exact .inr (.inr ⟨_, h⟩)
  · exact .inl h

/-- What the ninth interval reports, beside what it does to the channel (R302, R303). -/
theorem completeSymbol_report (s : State) (b : BarcodeRegs) :
    b.symbolRecord.elim [] (recordReport s) = [] ∨
    (b.symbolRecord.elim [] (recordReport s) = [.e2] ∧ (s.completeSymbol b).telemQ = s.telemQ ++ [.diag 0x01]) ∨
    (b.symbolRecord.elim [] (recordReport s) = [.e2, .e3] ∧ (s.completeSymbol b).telemQ = s.telemQ) ∨
    (b.symbolRecord.elim [] (recordReport s) = [.e3] ∧ (s.completeSymbol b).telemQ = s.telemQ) := by
  rw [completeSymbol_telemQ]
  rcases symbolRecord_cases b with h | h | ⟨payload, h⟩ <;> rw [h]
  · exact .inl rfl
  · simp only [Option.elim, recordReport]
    by_cases hroom : s.telemQ.length < s.par.telemDepth
    · rw [pushReport_of_room hroom, pushBounded_of_room _ hroom]
      exact .inr (.inl ⟨rfl, rfl⟩)
    · rw [pushReport_of_full (not_lt.mp hroom), pushBounded_of_full _ (not_lt.mp hroom)]
      exact .inr (.inr (.inl ⟨rfl, rfl⟩))
  · simp only [Option.elim, recordReport]
    by_cases hroom : s.telemQ.length < s.par.telemDepth
    · exact .inl (pushReport_of_room hroom)
    · rw [pushReport_of_full (not_lt.mp hroom), pushBounded_of_full _ (not_lt.mp hroom)]
      exact .inr (.inr (.inr ⟨rfl, rfl⟩))

/-- Settles O55: the tick by the reports of its steps 3 and 4, the falling edge by the completed symbol or the lack of one. -/
theorem errorClassesMatchResponses : Obligations.ErrorClassesMatchResponses := by
  refine ⟨?tick, ?edge⟩
  case tick =>
    intro lockFail s p b period obstacle due fails lost
    have hpar : b.par = s.par := (behave_par p).trans (poll_par s)
    have htelemQ : b.telemQ = s.telemQ := (behave_telemQ p).trans (poll_telemQ s)
    have hcounter : b.ctl.telemCounter = s.ctl.telemCounter :=
      (behave_ctl_telemCounter p).trans (poll_ctl_telemCounter s)
    have hdue : b.telemDue ↔ due = true := by
      rw [State.telemDue, telemPeriod_eq, hpar, hcounter, decide_eq_true_eq]
    have hfails : (if b.telemDue then b.failedTries lockFail else 0) = fails := by
      rw [State.failedTries, hpar]
      exact if_congr hdue rfl rfl
    have hobstacle : (p.ctl.mode = .forward ∨ p.ctl.mode = .barcodeApproach) ∧
        p.snap.distance.toInt < p.par.obstacleCm * 65536 ↔ obstacle = true := by
      rw [poll_snap, poll_par, decide_eq_true_eq]
    have hlost : b.telemDue ∧ lockFail.toNat < b.par.telemRetryMax ∧ b.par.telemDepth ≤ b.telemQ.length ↔ lost = true := by
      simp only [hdue, hpar, htelemQ, lost, Bool.and_eq_true, decide_eq_true_eq]
    refine ⟨?classes, _, exec_ctick lockFail s, ?stops, ?target, ?channel⟩
    case classes =>
      rw [errorClasses_ctick, behaveReport_eq, telemetryReport_eq, hfails, List.append_assoc]
      exact congrArg₂ _ (if_congr hobstacle rfl rfl) (congrArg _ (if_congr hlost rfl rfl))
    case stops => rw [telemetryStep_actOut, hfails]
    case target =>
      intro h
      obtain ⟨hmode, hnear⟩ := hobstacle.mpr h
      rw [telemetryStep_targetTicks, behave_targetTicks_of_obstacle hmode hnear]
    case channel =>
      intro h
      obtain ⟨-, -, hfull⟩ := hlost.mpr h
      rw [telemetryStep_telemQ_of_full lockFail hfull, htelemQ]
  case edge =>
    intro t s u h
    refine ⟨errorClasses_pedgeF_of_not_ninth t, ?_⟩
    by_cases hninth : s.bc.state = .accumulating ∧ s.bc.edgeCount.val = 8
    · obtain ⟨hstate, hcount⟩ := hninth
      obtain rfl := next_inj.mp ((exec_pedgeF_of_ninth t hstate hcount).symm.trans h)
      rw [errorClasses_pedgeF_of_ninth t hstate hcount]
      exact completeSymbol_report s _
    · exact .inl (errorClasses_pedgeF_of_not_ninth t hninth)

/-! ## A run at rest in the tolerance (44_controller.md R233, R256) -/

/-- A Forward run with no command, no obstacle and its error within the tolerance. -/
def State.AtRest (s : State) : Prop :=
  s.par.Valid ∧ s.cmdQ = [] ∧ s.ctl.mode = .forward ∧ (s.par.obstacleCm : Int) * 65536 ≤ s.snap.distance.toInt ∧
  |(s.ctl.targetTicks.toNat : Int) - s.enc.leftTicks.toNat| ≤ s.par.tolTicks

/-- A tick with no lock failure emits the words of step 3 alone. -/
theorem telemetryStep_actOut_of_no_failure (s : State) : (telemetryStep 0 s).actOut = s.actOut := by
  have hnone : s.failedTries 0 = 0 := Nat.zero_min _
  rw [telemetryStep_actOut, hnone, ite_self]
  exact List.append_nil _

section AtRest
variable {s : State}

/-- At rest the override keeps the target, so O41 speaks of the registers as they are. -/
theorem atRest_target (hs : s.AtRest) :
    (if s.snap.distance.toInt < s.par.obstacleCm * 65536 then (0 : BitVec 64) else s.ctl.targetTicks) = s.ctl.targetTicks := by
  obtain ⟨-, -, -, hclear, -⟩ := hs
  exact if_neg (not_lt.mpr hclear)

theorem atRest_counts (hs : s.AtRest) (hopen : s.ctl.steadyCounter.toNat + 1 < s.par.steadyWindow) :
    ∃ t, exec (.ctick 0) s = .next t ∧ t.AtRest ∧ t.ctl.steadyCounter.toNat = s.ctl.steadyCounter.toNat + 1 ∧
      t.par = s.par ∧ t.actOut = s.actOut ++ [.stop] ∧ t.enc = s.enc := by
  have ⟨hvalid, hempty, hmode, hclear, herror⟩ := hs
  have hbehave := forwardZoneStopsAndSettles s (.inl hmode)
  simp only [atRest_target hs] at hbehave
  obtain ⟨hcount, -, -⟩ := hbehave (abs_le.mp herror).2
  have htick := exec_ctick 0 s
  rw [poll_of_empty hempty, hcount hopen] at htick
  have hsteady : (s.ctl.steadyCounter + 1).toNat = s.ctl.steadyCounter.toNat + 1 := by
    have ⟨⟨_, hwindow⟩, _⟩ := hvalid
    bv_omega
  refine ⟨_, htick, ?_, ?_, ?_, ?_, ?_⟩
  · simp only [State.AtRest, telemetryStep_par, telemetryStep_cmdQ, telemetryStep_mode, telemetryStep_snap,
      telemetryStep_targetTicks, telemetryStep_enc]
    exact hs
  · rw [telemetryStep_steadyCounter, hsteady]
  · rw [telemetryStep_par]
  · rw [telemetryStep_actOut_of_no_failure]
  · rw [telemetryStep_enc]

theorem atRest_settles (hs : s.AtRest) (hfull : s.par.steadyWindow ≤ s.ctl.steadyCounter.toNat + 1) :
    ∃ t, exec (.ctick 0) s = .next t ∧ t.ctl.mode = .idle ∧ t.actOut = s.actOut ++ [.stop] ∧ t.enc = s.enc := by
  have ⟨_, hempty, hmode, _, herror⟩ := hs
  have hbehave := forwardZoneStopsAndSettles s (.inl hmode)
  simp only [atRest_target hs] at hbehave
  obtain ⟨hlow, hhigh⟩ := abs_le.mp herror
  obtain ⟨-, -, hidle⟩ := hbehave hhigh
  have htick := exec_ctick 0 s
  rw [poll_of_empty hempty, hidle hfull hlow] at htick
  exact ⟨_, htick, by rw [telemetryStep_mode], by rw [telemetryStep_actOut_of_no_failure], by rw [telemetryStep_enc]⟩

end AtRest

theorem runAll_cons_of_next {i : Instr} {is : List Instr} {s t : State} (h : exec i s = .next t) :
    runAll (i :: is) s = runAll is t := by
  rw [runAll, h]

/-- The ticks missing from the window, by induction on how many are missing after the next. -/
theorem atRest_run (n : Nat) : ∀ s : State, s.AtRest → s.ctl.steadyCounter.toNat + (n + 1) = s.par.steadyWindow →
    ∃ t, runAll (List.replicate (n + 1) (.ctick 0)) s = .next t ∧ t.ctl.mode = .idle ∧
      t.actOut = s.actOut ++ List.replicate (n + 1) .stop ∧ t.enc = s.enc := by
  induction n with
  | zero =>
    intro s hs hwindow
    obtain ⟨t, ht, hmode, hout, henc⟩ := atRest_settles hs (by omega)
    exact ⟨t, runAll_cons_of_next ht, hmode, hout, henc⟩
  | succ n ih =>
    intro s hs hwindow
    obtain ⟨u, hu, hrest, hsteady, hpar, huOut, huEnc⟩ := atRest_counts hs (by omega)
    obtain ⟨t, ht, hmode, hout, henc⟩ := ih u hrest (by rw [hsteady, hpar]; omega)
    refine ⟨t, (runAll_cons_of_next hu).trans ht, hmode, ?_, henc.trans huEnc⟩
    rw [hout, huOut, List.append_assoc]
    rfl

/-- Settles O54, by `atRest_run`. -/
theorem forwardSettlesWithinWindow : Obligations.ForwardSettlesWithinWindow := by
  intro s k hvalid hempty hmode hclear herror hwindow hk
  obtain ⟨n, rfl⟩ := Nat.exists_eq_add_of_le' hk
  exact atRest_run n s ⟨hvalid, hempty, hmode, hclear, herror⟩ hwindow

end Sys2Proof.Machine
end

section
/-! A character between two sentinels, scanned in either direction (42_barcode.md R171): the elements of one symbol measured edge by
edge, the window read back as the printed pattern, and the three symbols one after the other. -/

namespace Sys2Proof.Machine

/-! ## One element -/

/-- The registers after one element of width `x`, under the policy `once`. -/
def BarcodeRegs.measure (b : BarcodeRegs) (x : Time) : BarcodeRegs :=
  if b.spaceDue then b.recordSpace (b.prevEdgeT + x) else b.recordBar .once (b.prevEdgeT + x)

/-- The registers after the elements `es`, in the order they pass the sensor. -/
def BarcodeRegs.measureAll (narrow wideW : Time) (es : List Bool) (b : BarcodeRegs) : BarcodeRegs :=
  es.foldl (fun b e => b.measure (elementWidth narrow wideW e)) b

section Measure
variable {b : BarcodeRegs} (x : Time)

theorem measure_of_spaceDue (h : b.spaceDue) : b.measure x = b.recordSpace (b.prevEdgeT + x) := if_pos h

theorem measure_of_barDue (h : ¬ b.spaceDue) : b.measure x = b.recordBar .once (b.prevEdgeT + x) := if_neg h

variable (b)

@[simp] theorem measure_state : (b.measure x).state = b.state := by
  unfold BarcodeRegs.measure
  split
  · rfl
  · exact recordBar_state ..

@[simp] theorem measure_edgeCount : (b.measure x).edgeCount = b.nextCount := by
  unfold BarcodeRegs.measure; split <;> rfl

@[simp] theorem measure_prevEdgeT : (b.measure x).prevEdgeT = b.prevEdgeT + x := by
  unfold BarcodeRegs.measure; split <;> rfl

@[simp] theorem measure_reversed : (b.measure x).reversed = b.reversed := by
  unfold BarcodeRegs.measure
  split
  · rfl
  · exact recordBar_reversed ..

@[simp] theorem measure_assembled : (b.measure x).assembled = b.assembled := by
  unfold BarcodeRegs.measure
  split
  · rfl
  · exact recordBar_assembled ..

/-- The interval that the edge ends is the width of the element. -/
theorem measure_barW :
    (b.measure x).barW = if b.spaceDue then b.barW else b.barW.setIfInBounds (b.edgeCount.val / 2) x := by
  unfold BarcodeRegs.measure
  split
  · rfl
  · rw [recordBar_barW, add_sub_cancel_left]

theorem measure_spaceW :
    (b.measure x).spaceW = if b.spaceDue then b.spaceW.setIfInBounds (b.edgeCount.val / 2) x else b.spaceW := by
  unfold BarcodeRegs.measure
  split
  · rw [recordSpace_spaceW, add_sub_cancel_left]
  · exact recordBar_spaceW ..

variable {b}

/-- Under the policy `once` a seeded threshold stays (R156). -/
theorem measure_threshold_of_valid (h : b.threshValid = true) :
    (b.measure x).threshValid = true ∧ (b.measure x).threshold = b.threshold := by
  unfold BarcodeRegs.measure
  split
  · exact ⟨h, rfl⟩
  · refine ⟨recordBar_threshValid .., ?_⟩
    rw [recordBar_threshold_eq, if_neg (by simp [h])]

/-- The first bar of all seeds the threshold with twice its width (R155). -/
theorem measure_threshold_of_first (hcount : b.edgeCount = 0) (h : b.threshValid = false) :
    (b.measure x).threshValid = true ∧ (b.measure x).threshold = BitVec.ofNat 65 (2 * x.toNat) := by
  have hbarDue : ¬ b.spaceDue := by simp [hcount]
  rw [measure_of_barDue x hbarDue]
  refine ⟨recordBar_threshValid .., ?_⟩
  rw [recordBar_threshold_eq, if_pos (.inl h), add_sub_cancel_left]

end Measure

/-! ## The elements of one symbol -/

section MeasureAll
variable (narrow wideW : Time) (es : List Bool)

theorem measureAll_frame (b : BarcodeRegs) :
    (b.measureAll narrow wideW es).reversed = b.reversed ∧ (b.measureAll narrow wideW es).assembled = b.assembled := by
  induction es generalizing b with
  | nil => exact ⟨rfl, rfl⟩
  | cons e es ih =>
    obtain ⟨hreversed, hassembled⟩ := ih (b.measure (elementWidth narrow wideW e))
    exact ⟨hreversed.trans (measure_reversed ..), hassembled.trans (measure_assembled ..)⟩

theorem measureAll_threshold_of_valid {b : BarcodeRegs} (h : b.threshValid = true) :
    (b.measureAll narrow wideW es).threshValid = true ∧ (b.measureAll narrow wideW es).threshold = b.threshold := by
  induction es generalizing b with
  | nil => exact ⟨h, rfl⟩
  | cons e es ih =>
    obtain ⟨hvalid, hthreshold⟩ := measure_threshold_of_valid (elementWidth narrow wideW e) h
    obtain ⟨hvalid', hthreshold'⟩ := ih hvalid
    exact ⟨hvalid', hthreshold'.trans hthreshold⟩

/-- A symbol that begins with a narrow bar leaves the threshold at twice the narrow width, if no other symbol has seeded it. -/
theorem measureAll_threshold {b : BarcodeRegs} (hcount : b.edgeCount = 0)
    (h : (b.threshValid = true ∧ b.threshold = BitVec.ofNat 65 (2 * narrow.toNat)) ∨
      (b.threshValid = false ∧ es.head? = some false)) :
    (b.measureAll narrow wideW es).threshValid = true ∧
    (b.measureAll narrow wideW es).threshold = BitVec.ofNat 65 (2 * narrow.toNat) := by
  rcases h with ⟨hvalid, hthreshold⟩ | ⟨hinvalid, hhead⟩
  · rw [← hthreshold]
    exact measureAll_threshold_of_valid narrow wideW es hvalid
  · obtain ⟨rest, rfl⟩ := List.head?_eq_some_iff.mp hhead
    obtain ⟨hvalid, hthreshold⟩ := measure_threshold_of_first (elementWidth narrow wideW false) hcount hinvalid
    obtain ⟨hvalid', hthreshold'⟩ := measureAll_threshold_of_valid narrow wideW rest hvalid
    exact ⟨hvalid', hthreshold'.trans hthreshold⟩

end MeasureAll

/-- A width register all of whose cells have been written, in order. -/
theorem setIfInBounds_five {α : Type} (v : Vector α 5) (a b c d e : α) :
    (((((v.setIfInBounds 0 a).setIfInBounds 1 b).setIfInBounds 2 c).setIfInBounds 3 d).setIfInBounds 4 e).toList =
      [a, b, c, d, e] := by
  obtain ⟨⟨cells⟩, hsize⟩ := v
  match cells, hsize with
  | [_, _, _, _, _], _ => rfl

theorem setIfInBounds_four {α : Type} (v : Vector α 4) (a b c d : α) :
    ((((v.setIfInBounds 0 a).setIfInBounds 1 b).setIfInBounds 2 c).setIfInBounds 3 d).toList = [a, b, c, d] := by
  obtain ⟨⟨cells⟩, hsize⟩ := v
  match cells, hsize with
  | [_, _, _, _], _ => rfl

/-- Nine elements fill the two width registers in the order they were measured. -/
theorem measureAll_widths (narrow wideW : Time) {b : BarcodeRegs} (hcount : b.edgeCount = 0) {bars spaces : List Bool}
    (hbars : bars.length = 5) (hspaces : spaces.length = 4) :
    (b.measureAll narrow wideW (interleave bars spaces)).barW.toList = bars.map (elementWidth narrow wideW) ∧
    (b.measureAll narrow wideW (interleave bars spaces)).spaceW.toList = spaces.map (elementWidth narrow wideW) := by
  match bars, spaces, hbars, hspaces with
  | [b0, b1, b2, b3, b4], [s0, s1, s2, s3], _, _ =>
    simp only [interleave, BarcodeRegs.measureAll, List.foldl, measure_barW, measure_spaceW, measure_edgeCount,
      BarcodeRegs.spaceDue, BarcodeRegs.nextCount, hcount]
    exact ⟨setIfInBounds_five .., setIfInBounds_four ..⟩

/-- Narrow and wide elements are told apart by a threshold of twice the narrow width (R157). -/
theorem map_wide_map_elementWidth {narrow wideW : Time} (hnarrow : 0 < narrow.toNat) (hwide : 2 * narrow.toNat < wideW.toNat)
    (es : List Bool) :
    (es.map (elementWidth narrow wideW)).map (wide (BitVec.ofNat 65 (2 * narrow.toNat))) = es := by
  have hthreshold : (BitVec.ofNat 65 (2 * narrow.toNat)).toNat = 2 * narrow.toNat := by
    have := narrow.isLt
    rw [BitVec.toNat_ofNat]
    exact Nat.mod_eq_of_lt (by omega)
  rw [List.map_map]
  refine (List.map_congr_left fun e _ => ?_).trans (List.map_id es)
  simp only [Function.comp, wide, hthreshold, elementWidth]
  cases e with
  | false => exact decide_eq_false (not_lt.mpr (by simp only [Bool.false_eq_true, if_false]; omega))
  | true => exact decide_eq_true hwide

/-! ## The edges of one symbol -/

/-- The elements still missing from the window, by induction: each edge but the last measures its element, the last completes the
symbol (R152, R155, R160). -/
theorem elementEdges_run (narrow wideW : Time) (es : List Bool) :
    ∀ (falling : Bool) (s : State), s.par.seedPolicy = .once → s.bc.state = .accumulating →
      (falling = true ↔ ¬ s.bc.spaceDue) → s.bc.edgeCount.val + es.length = 9 →
      runAll (elementEdges narrow wideW falling s.bc.prevEdgeT es) s =
        .next (s.completeSymbol (s.bc.measureAll narrow wideW es)) := by
  induction es with
  | nil =>
    intro falling s _ _ _ hlength
    have := s.bc.edgeCount.isLt
    rw [List.length_nil] at hlength
    omega
  | cons e es ih =>
    intro falling s hpolicy hstate hfalling hlength
    rw [List.length_cons] at hlength
    rw [elementEdges]
    by_cases hninth : s.bc.edgeCount.val = 8
    · obtain rfl : es = [] := List.eq_nil_of_length_eq_zero (by omega)
      have hbarDue : ¬ s.bc.spaceDue := by omega
      rw [if_pos (hfalling.mpr hbarDue), runAll_cons_of_next (exec_pedgeF_of_ninth _ hstate hninth), hpolicy,
        ← measure_of_barDue _ hbarDue]
      rfl
    · have hexec : exec (if falling then .pedgeF (s.bc.prevEdgeT + elementWidth narrow wideW e)
          else .pedgeR (s.bc.prevEdgeT + elementWidth narrow wideW e)) s =
          .next (s.setBarcode (s.bc.measure (elementWidth narrow wideW e))) := by
        by_cases hdue : s.bc.spaceDue
        · rw [if_neg (fun h => hfalling.mp h hdue), exec_pedgeR_of_spaceDue _ hstate hdue, measure_of_spaceDue _ hdue]
        · rw [if_pos (hfalling.mpr hdue), exec_pedgeF_of_barDue _ hstate hdue hninth, hpolicy, measure_of_barDue _ hdue]
      have hnext := nextCount_val s.bc hninth
      rw [runAll_cons_of_next hexec]
      have hrest := ih (!falling) (s.setBarcode (s.bc.measure (elementWidth narrow wideW e))) hpolicy
        ((measure_state ..).trans hstate) ?_ ?_
      · rw [State.setBarcode_bc, measure_prevEdgeT] at hrest
        exact hrest
      · rw [State.setBarcode_bc, BarcodeRegs.spaceDue, measure_edgeCount, hnext, Bool.not_eq_true', ← Bool.not_eq_true,
          hfalling]
        omega
      · rw [State.setBarcode_bc, measure_edgeCount, hnext]
        omega

/-- One symbol from Idle: it is completed in a window that reads as the printed pattern, and the scan registers are as before. -/
theorem symbolEdges_run {s : State} {narrow wideW : Time} (t : Time) {bars spaces : List Bool} (hidle : s.bc.state = .idle)
    (hpolicy : s.par.seedPolicy = .once) (hnarrow : 0 < narrow.toNat) (hwide : 2 * narrow.toNat < wideW.toNat)
    (hbars : bars.length = 5) (hspaces : spaces.length = 4)
    (hthreshold : (s.bc.threshValid = true ∧ s.bc.threshold = BitVec.ofNat 65 (2 * narrow.toNat)) ∨
      (s.bc.threshValid = false ∧ bars.head? = some false)) :
    ∃ b : BarcodeRegs, runAll (symbolEdges narrow wideW t bars spaces) s = .next (s.completeSymbol b) ∧
      b.bars = bars ∧ b.spaces = spaces ∧ b.reversed = s.bc.reversed ∧ b.assembled = s.bc.assembled ∧
      b.threshValid = true ∧ b.threshold = BitVec.ofNat 65 (2 * narrow.toNat) := by
  have hhead : (interleave bars spaces).head? = bars.head? := by
    match bars, spaces, hbars, hspaces with
    | _ :: _, _ :: _, _, _ => rfl
  have hlength : (interleave bars spaces).length = 9 := by
    match bars, spaces, hbars, hspaces with
    | [_, _, _, _, _], [_, _, _, _], _, _ => rfl
  rw [← hhead] at hthreshold
  rw [symbolEdges, runAll_cons_of_next (exec_pedgeR_of_idle t hidle)]
  generalize hb : ({ s.bc with state := .accumulating, edgeCount := 0, prevEdgeT := t } : BarcodeRegs) = start
  have hrun := elementEdges_run narrow wideW (interleave bars spaces) true (s.setBarcode start) hpolicy
    (by subst hb; rfl) (by subst hb; simp) (by subst hb; simp [hlength])
  obtain ⟨hvalid, hthreshold⟩ := measureAll_threshold narrow wideW (interleave bars spaces) (b := start)
    (by subst hb; rfl) (by subst hb; exact hthreshold)
  obtain ⟨hbarW, hspaceW⟩ := measureAll_widths narrow wideW (b := start) (by subst hb; rfl) hbars hspaces
  obtain ⟨hreversed, hassembled⟩ := measureAll_frame narrow wideW (interleave bars spaces) start
  refine ⟨start.measureAll narrow wideW (interleave bars spaces), ?_, ?_, ?_, ?_, ?_, hvalid, hthreshold⟩
  · subst hb; exact hrun
  · rw [BarcodeRegs.bars, hbarW, hthreshold, map_wide_map_elementWidth hnarrow hwide]
  · rw [BarcodeRegs.spaces, hspaceW, hthreshold, map_wide_map_elementWidth hnarrow hwide]
  · subst hb; exact hreversed
  · subst hb; exact hassembled

/-! ## The two directions of a scan -/

/-- A pattern as it passes the sensor when the print is crossed backwards (`r`) or forwards (R161). -/
def crossed (r : Bool) (pattern : List Bool) : List Bool := if r then pattern.reverse else pattern

@[simp] theorem crossed_length (r : Bool) (pattern : List Bool) : (crossed r pattern).length = pattern.length := by
  cases r
  · rfl
  · exact List.length_reverse

/-- The bars of the sentinel (R163). -/
abbrev sentinelBars : List Bool := [false, false, true, true, false]

/-- The spaces of the sentinel (R164). -/
abbrev sentinelSpaces : List Bool := [true, false, false, false]

section Crossed
variable {b : BarcodeRegs} {r : Bool} {bars spaces : List Bool}

/-- A window crossed in the orientation of the scan reads as the printed character. -/
theorem orientedChar_of_crossed (hbars : b.bars = crossed r bars) (hspaces : b.spaces = crossed r spaces) :
    (if r then b.reversedChar else b.normalChar) = decodeSymbol bars spaces := by
  cases r with
  | false => rw [if_neg nofun, BarcodeRegs.normalChar, hbars, hspaces]; rfl
  | true =>
    rw [if_pos rfl, BarcodeRegs.reversedChar, hbars, hspaces]
    simp only [crossed, if_true, List.reverse_reverse]

/-- R167: the sentinel tells the orientation, for read against it it is another character. -/
theorem classify_start (hfirst : b.assembled = []) (hbars : b.bars = crossed r sentinelBars)
    (hspaces : b.spaces = crossed r sentinelSpaces) : b.classify = .start r := by
  have hsentinel : decodeSymbol sentinelBars sentinelSpaces = sentinel := by decide
  have hother : decodeSymbol sentinelBars.reverse sentinelSpaces.reverse ≠ sentinel := by decide
  have hchar := (orientedChar_of_crossed hbars hspaces).trans hsentinel
  rw [BarcodeRegs.classify, if_pos hfirst]
  cases r with
  | false => exact if_pos hchar
  | true =>
    have hnormal : b.normalChar ≠ sentinel := by rw [BarcodeRegs.normalChar, hbars, hspaces]; exact hother
    rw [if_neg hnormal]
    exact if_pos hchar

variable (hlater : b.assembled ≠ []) (hreversed : b.reversed = r) (hbars : b.bars = crossed r bars)
  (hspaces : b.spaces = crossed r spaces)
include hlater hreversed hbars hspaces

/-- R168, the end sentinel. -/
theorem classify_endScan (h : decodeSymbol bars spaces = sentinel) : b.classify = .endScan := by
  rw [BarcodeRegs.classify, if_neg hlater, hreversed, orientedChar_of_crossed hbars hspaces]
  exact if_pos h

/-- R168, any other character. -/
theorem classify_char (h : decodeSymbol bars spaces ≠ sentinel) : b.classify = .char (decodeSymbol bars spaces) := by
  rw [BarcodeRegs.classify, if_neg hlater, hreversed, orientedChar_of_crossed hbars hspaces]
  exact if_neg h

end Crossed

/-! ## The three symbols -/

/-- The engine between two symbols of a scan in the direction `r`, with `assembled` in the buffer. -/
def State.BetweenSymbols (s : State) (narrow : Time) (r : Bool) (assembled : List Byte) : Prop :=
  s.bc.state = .idle ∧ (s.bc.threshValid = true ∧ s.bc.threshold = BitVec.ofNat 65 (2 * narrow.toNat)) ∧
  s.bc.reversed = r ∧ s.bc.assembled = assembled

/-- A completed symbol leaves the engine between two symbols, whatever the symbol was. -/
theorem completeSymbol_between {s : State} {b : BarcodeRegs} {narrow : Time} (hvalid : b.threshValid = true)
    (hthreshold : b.threshold = BitVec.ofNat 65 (2 * narrow.toNat)) :
    (s.completeSymbol b).BetweenSymbols narrow (b.applySymbol s.par.assembledMax).reversed
      (b.applySymbol s.par.assembledMax).assembled := by
  refine ⟨?_, ⟨?_, ?_⟩, completeSymbol_reversed .., completeSymbol_assembled ..⟩
  all_goals rw [completeSymbol_bc]
  · exact hvalid
  · exact hthreshold

section Scan
variable {s : State} {narrow wideW : Time} {r : Bool} (hpolicy : s.par.seedPolicy = .once) (hnarrow : 0 < narrow.toNat)
  (hwide : 2 * narrow.toNat < wideW.toNat)
include hpolicy hnarrow hwide

/-- The start sentinel from the reset state. -/
theorem run_startSentinel (t : Time) (hreset : s.bc = BarcodeRegs.reset) :
    ∃ u, runAll (symbolEdges narrow wideW t (crossed r sentinelBars) (crossed r sentinelSpaces)) s = .next u ∧
      u.BetweenSymbols narrow r [sentinel] ∧ u = { s with bc := u.bc } := by
  have hhead : (crossed r sentinelBars).head? = some false := by cases r <;> rfl
  obtain ⟨b, hrun, hbars, hspaces, -, hassembled, hvalid, hthreshold⟩ := symbolEdges_run t (by rw [hreset]; rfl) hpolicy
    hnarrow hwide (crossed_length r sentinelBars) (crossed_length r sentinelSpaces)
    (.inr ⟨by rw [hreset]; rfl, hhead⟩)
  have hclassify : b.classify = .start r := classify_start (by rw [hassembled, hreset]; rfl) hbars hspaces
  have hbetween := completeSymbol_between (s := s) hvalid hthreshold
  rw [BarcodeRegs.applySymbol, hclassify] at hbetween
  refine ⟨_, hrun, hbetween, ?_⟩
  rw [completeSymbol_eq, BarcodeRegs.symbolRecord, hclassify]
  rfl

variable {assembled : List Byte} {bars spaces : List Bool}

/-- A character inside a scan whose buffer has room. -/
theorem run_character (t : Time) (hs : s.BetweenSymbols narrow r assembled) (hscan : assembled ≠ [])
    (hroom : assembled.length < s.par.assembledMax) (hbars : bars.length = 5) (hspaces : spaces.length = 4)
    (hchar : decodeSymbol bars spaces ≠ sentinel) :
    ∃ u, runAll (symbolEdges narrow wideW t (crossed r bars) (crossed r spaces)) s = .next u ∧
      u.BetweenSymbols narrow r (assembled ++ [decodeSymbol bars spaces]) ∧ u = { s with bc := u.bc } := by
  obtain ⟨hidle, hseeded, hreversed, hassembled⟩ := hs
  obtain ⟨b, hrun, hbBars, hbSpaces, hbReversed, hbAssembled, hvalid, hthreshold⟩ := symbolEdges_run t hidle hpolicy
    hnarrow hwide ((crossed_length r bars).trans hbars) ((crossed_length r spaces).trans hspaces) (.inl hseeded)
  rw [hassembled] at hbAssembled
  rw [hreversed] at hbReversed
  have hclassify := classify_char (by rwa [hbAssembled]) hbReversed hbBars hbSpaces hchar
  have hbetween := completeSymbol_between (s := s) hvalid hthreshold
  rw [BarcodeRegs.applySymbol, hclassify, BarcodeRegs.asmLen, hbAssembled] at hbetween
  simp only [if_pos hroom, hbReversed] at hbetween
  refine ⟨_, hrun, hbetween, ?_⟩
  rw [completeSymbol_eq, BarcodeRegs.symbolRecord, hclassify]
  rfl

/-- The end sentinel: the record of what stands after the start sentinel. -/
theorem run_endSentinel (t : Time) (hs : s.BetweenSymbols narrow r assembled) (hscan : assembled ≠ []) :
    ∃ u, runAll (symbolEdges narrow wideW t (crossed r sentinelBars) (crossed r sentinelSpaces)) s = .next u ∧
      u.BetweenSymbols narrow false [] ∧
      u = { s with bc := u.bc, telemQ := pushBounded s.par.telemDepth s.telemQ (.barcode (assembled.drop 1)) } := by
  obtain ⟨hidle, hseeded, hreversed, hassembled⟩ := hs
  obtain ⟨b, hrun, hbBars, hbSpaces, hbReversed, hbAssembled, hvalid, hthreshold⟩ := symbolEdges_run t hidle hpolicy
    hnarrow hwide (crossed_length r sentinelBars) (crossed_length r sentinelSpaces) (.inl hseeded)
  rw [hassembled] at hbAssembled
  rw [hreversed] at hbReversed
  have hclassify := classify_endScan (by rwa [hbAssembled]) hbReversed hbBars hbSpaces (by decide)
  have hbetween := completeSymbol_between (s := s) hvalid hthreshold
  rw [BarcodeRegs.applySymbol, hclassify] at hbetween
  refine ⟨_, hrun, hbetween, ?_⟩
  rw [completeSymbol_eq, BarcodeRegs.symbolRecord, hclassify, hbAssembled]
  rfl

end Scan

theorem runAll_append_of_next {is js : List Instr} {s u : State} (h : runAll is s = .next u) :
    runAll (is ++ js) s = runAll js u := by
  induction is generalizing s with
  | nil => obtain rfl := next_inj.mp h; rfl
  | cons i is ih =>
    obtain ⟨v, hv, hrest⟩ := runAll_cons_eq_next h
    rw [List.cons_append, runAll_cons_of_next hv, ih hrest]

/-- R171 in either direction: the start sentinel, the character, the end sentinel. -/
theorem scan_run (r : Bool) {s : State} {n w : Time} (t1 t2 t3 : Time) {bars spaces : List Bool} {v o : Nat}
    (hreset : s.bc = BarcodeRegs.reset) (hvalid : s.par.Valid) (hpolicy : s.par.seedPolicy = .once) (hn : 0 < n.toNat)
    (hw : 2 * n.toNat < w.toNat) (hbars : (bars, v) ∈ barTable) (hspaces : (spaces, o) ∈ spaceTable)
    (hchar : decodeSymbol bars spaces ≠ sentinel) :
    ∃ u, runAll
        (symbolEdges n w t1 (crossed r sentinelBars) (crossed r sentinelSpaces)
          ++ symbolEdges n w t2 (crossed r bars) (crossed r spaces)
          ++ symbolEdges n w t3 (crossed r sentinelBars) (crossed r sentinelSpaces)) s = .next u ∧
      u.telemQ = (if s.telemQ.length < s.par.telemDepth then s.telemQ ++ [.barcode [decodeSymbol bars spaces]] else s.telemQ) ∧
      u.bc.assembled = [] ∧ u.bc.reversed = false ∧ u.bc.state = .idle ∧ u.actOut = s.actOut := by
  have hfive : ∀ p ∈ barTable, p.1.length = 5 := by decide
  have hfour : ∀ p ∈ spaceTable, p.1.length = 4 := by decide
  have ⟨_, _, _, _, _, _, _, _, _, _, _, _, _, _, ⟨hcap, _⟩, _⟩ := hvalid
  obtain ⟨s1, hrun1, hs1, hframe1⟩ := run_startSentinel (r := r) hpolicy hn hw t1 hreset
  have hpar1 : s1.par = s.par := by rw [hframe1]
  obtain ⟨s2, hrun2, hs2, hframe2⟩ := run_character (s := s1) (by rwa [hpar1]) hn hw t2 hs1 (List.cons_ne_nil _ _)
    (by rw [hpar1]; exact hcap) (hfive _ hbars) (hfour _ hspaces) hchar
  have hpar2 : s2.par = s.par := by rw [hframe2, hframe1]
  obtain ⟨u, hrun3, ⟨hidle, -, hreversed, hassembled⟩, hframe3⟩ := run_endSentinel (s := s2) (by rwa [hpar2]) hn hw t3 hs2
    (List.append_ne_nil_of_left_ne_nil (List.cons_ne_nil _ _) _)
  have htelemQ : s2.telemQ = s.telemQ := by rw [hframe2, hframe1]
  have hactOut : s2.actOut = s.actOut := by rw [hframe2, hframe1]
  refine ⟨u, ?_, ?_, hassembled, hreversed, hidle, (congrArg State.actOut hframe3).trans hactOut⟩
  · rw [List.append_assoc, runAll_append_of_next hrun1, runAll_append_of_next hrun2, hrun3]
  · rw [congrArg State.telemQ hframe3, htelemQ, hpar2]
    rfl

/-- Settles O26, the scan that crosses every pattern as it is printed. -/
theorem barcodeRoundTripForwards : Obligations.BarcodeRoundTripForwards :=
  fun _ _ _ t1 t2 t3 _ _ _ _ hreset hvalid hpolicy hn hw hbars hspaces hchar =>
    scan_run false t1 t2 t3 hreset hvalid hpolicy hn hw hbars hspaces hchar

/-- Settles O27, the scan that crosses every pattern in the opposite order. -/
theorem barcodeRoundTripBackwards : Obligations.BarcodeRoundTripBackwards :=
  fun _ _ _ t1 t2 t3 _ _ _ _ hreset hvalid hpolicy hn hw hbars hspaces hchar =>
    scan_run true t1 t2 t3 hreset hvalid hpolicy hn hw hbars hspaces hchar

end Sys2Proof.Machine
end
